-- ==== Sys2Proof/Word.lean ====
section
/-! DEFINITION. The bit widths of the block (00_scope.md R9: AMP_W 16, PERIOD_W 32, TIME_W 64, VEL_W 8, HARM_W 16)
under the names the rules use. Every value is unsigned (R11). -/

namespace Sys2Proof

/-- One command word (30_encoding.md R90). -/
abbrev CmdWord := BitVec 64

/-- A sample or an amplitude, AMP_W bits. -/
abbrev Sample := BitVec 16

/-- A period, phase offset, sample spacing, beat index or meter reading, PERIOD_W bits. -/
abbrev Period := BitVec 32

/-- An instant or an envelope duration, TIME_W bits. -/
abbrev Instant := BitVec 64

/-- A velocity, VEL_W bits. -/
abbrev Velocity := BitVec 8

/-- A harmonic, HARM_W bits. -/
abbrev Harmonic := BitVec 16

/-- The channel field of a command word, 8 bits (30_encoding.md R90). -/
abbrev ChanIdx := BitVec 8

/-- The number of a buffer or of a descriptor: 0 or 1 (10_state.md R43, R45). -/
abbrev Slot := BitVec 1

end Sys2Proof
end

