-- ==== Sys2Proof/Syntax.lean ====
section
/-! DEFINITION. The ten commands of the opcode map (30_encoding.md R93, opcode_table.json), each with the operands its
format gives it (R91, R92). The channel is the CH field of the word. -/

namespace Sys2Proof

/-- One command: its channel, then its operands. -/
inductive Instr where
  /-- ON: note on (42_envelope.md R155). -/
  | on (ch : ChanIdx) (vel : Velocity) (harm : Harmonic)
  /-- OFF: note off; the velocity is decoded and ignored (R156). -/
  | off (ch : ChanIdx) (vel : Velocity)
  /-- UPDATE: deadline wake-up (R157). -/
  | update (ch : ChanIdx)
  /-- REQUEST: reclaim the buffer that just finished (40_pipeline.md R111). -/
  | request (ch : ChanIdx)
  /-- FILL: synthesize the outstanding fill request (41_synthesis.md R141). -/
  | fill (ch : ChanIdx)
  /-- SUBMIT: give the filled buffer to hardware (40_pipeline.md R112). -/
  | submit (ch : ChanIdx) (buf : Slot)
  /-- SET: write the target waveform parameters (R113). -/
  | set (ch : ChanIdx) (period : Period) (amp : Sample) (inv : Bool)
  /-- CAL: the calibration sampling routine (43_calibration.md R184). -/
  | cal (ch : ChanIdx)
  /-- READ: read one register (44_access.md R190). -/
  | read (ch : ChanIdx) (reg : BitVec 8)
  /-- RDBUF: read one sample of buffer memory (R191). -/
  | rdbuf (ch : ChanIdx) (buf : Slot) (index : BitVec 32)
  deriving DecidableEq, Repr

/-- The channel a command selects. -/
def Instr.ch : Instr → ChanIdx
  | .on ch _ _ => ch
  | .off ch _ => ch
  | .update ch => ch
  | .request ch => ch
  | .fill ch => ch
  | .submit ch _ => ch
  | .set ch _ _ _ => ch
  | .cal ch => ch
  | .read ch _ => ch
  | .rdbuf ch _ _ => ch

end Sys2Proof
end

