-- ==== Sys2Proof/Decode.lean ====
section
/-! DEFINITION. Decoding and encoding of command words (30_encoding.md R90 to R98). The decoder does steps (1) and (2) of
R97's decode order, which need only the word; steps (3) and (4) need the configuration and are done where a command
executes (WellFormed.lean says them, Machine/Ops.lean and Machine/Access.lean do them; log 10). -/

namespace Sys2Proof

/-- Why a word is no command (R97 steps 1 and 2). -/
inductive DecodeError where
  /-- OP is 0x0 or 0xB to 0xF (R94). -/
  | reservedOpcode
  /-- A bit the format does not assign is 1 (R95). -/
  | reservedBit
  deriving DecidableEq, Repr

/-- The seven formats (R91). -/
inductive Format where
  | n
  | v
  | vh
  | b
  | s
  | r
  | m
  deriving DecidableEq, Repr

/-- The reserved-zero bits of each format (R91, last column). -/
def Format.reserved : Format → CmdWord
  | .n => 0x000FFFFFFFFFFFFF#64
  | .v => 0x000FFFFFFFFFFF00#64
  | .vh => 0x000FFFFF0000FF00#64
  | .b => 0x000FFFFFFFFFFFFE#64
  | .s => 0x0007000000000000#64
  | .r => 0x000FFFFFFFFFFF00#64
  | .m => 0x000FFFFE00000000#64

/-- OP = bits [63:60]. -/
def opField (w : CmdWord) : BitVec 4 := w.extractLsb' 60 4
/-- CH = bits [59:52]. -/
def chField (w : CmdWord) : ChanIdx := w.extractLsb' 52 8
/-- VEL = bits [7:0] of formats V and VH. -/
def velField (w : CmdWord) : Velocity := w.extractLsb' 0 8
/-- HARM = bits [31:16] of format VH. -/
def harmField (w : CmdWord) : Harmonic := w.extractLsb' 16 16
/-- BUF = bit [0] of format B. -/
def submitBufField (w : CmdWord) : Slot := w.extractLsb' 0 1
/-- INV = bit [51] of format S. -/
def invField (w : CmdWord) : Bool := w.getLsbD 51
/-- AMP = bits [47:32] of format S. -/
def ampField (w : CmdWord) : Sample := w.extractLsb' 32 16
/-- PERIOD = bits [31:0] of format S. -/
def periodField (w : CmdWord) : Period := w.extractLsb' 0 32
/-- REG = bits [7:0] of format R. -/
def regField (w : CmdWord) : BitVec 8 := w.extractLsb' 0 8
/-- BUF = bit [32] of format M. -/
def rdbufBufField (w : CmdWord) : Slot := w.extractLsb' 32 1
/-- INDEX = bits [31:0] of format M. -/
def indexField (w : CmdWord) : BitVec 32 := w.extractLsb' 0 32

/-- R97 step 2: the command, unless a reserved bit of its format is set. -/
def checkReserved (f : Format) (w : CmdWord) (i : Instr) : Except DecodeError Instr :=
  if w &&& f.reserved = 0#64 then .ok i else .error .reservedBit

/-- The decoder, total on every 64-bit word (R97, opcode map R93). -/
def decode (w : CmdWord) : Except DecodeError Instr :=
  match (opField w).toNat with
  | 0x1 => checkReserved .vh w (.on (chField w) (velField w) (harmField w))
  | 0x2 => checkReserved .v w (.off (chField w) (velField w))
  | 0x3 => checkReserved .n w (.update (chField w))
  | 0x4 => checkReserved .n w (.request (chField w))
  | 0x5 => checkReserved .n w (.fill (chField w))
  | 0x6 => checkReserved .b w (.submit (chField w) (submitBufField w))
  | 0x7 => checkReserved .s w (.set (chField w) (periodField w) (ampField w) (invField w))
  | 0x8 => checkReserved .n w (.cal (chField w))
  | 0x9 => checkReserved .r w (.read (chField w) (regField w))
  | 0xA => checkReserved .m w (.rdbuf (chField w) (rdbufBufField w) (indexField w))
  | _ => .error .reservedOpcode

/-- The opcode of each command (R93). -/
def Instr.opcode : Instr → BitVec 4
  | .on _ _ _ => 0x1
  | .off _ _ => 0x2
  | .update _ => 0x3
  | .request _ => 0x4
  | .fill _ => 0x5
  | .submit _ _ => 0x6
  | .set _ _ _ _ => 0x7
  | .cal _ => 0x8
  | .read _ _ => 0x9
  | .rdbuf _ _ _ => 0xA

/-- The format of each command (R91, R93). -/
def Instr.format : Instr → Format
  | .on _ _ _ => .vh
  | .off _ _ => .v
  | .update _ => .n
  | .request _ => .n
  | .fill _ => .n
  | .submit _ _ => .b
  | .set _ _ _ _ => .s
  | .cal _ => .n
  | .read _ _ => .r
  | .rdbuf _ _ _ => .m

/-- The operand bits [51:0] of each command, in the layout of its format's diagram (R91). -/
def Instr.operands : Instr → BitVec 52
  | .on _ vel harm => 0#20 ++ harm ++ 0#8 ++ vel
  | .off _ vel => 0#44 ++ vel
  | .update _ => 0#52
  | .request _ => 0#52
  | .fill _ => 0#52
  | .submit _ buf => 0#51 ++ buf
  | .set _ period amp inv => BitVec.ofBool inv ++ 0#3 ++ amp ++ period
  | .cal _ => 0#52
  | .read _ reg => 0#44 ++ reg
  | .rdbuf _ buf index => 0#19 ++ buf ++ index

/-- The encoder: OP, CH, operands, from bit 63 down (R90, R91). -/
def encode (i : Instr) : CmdWord := i.opcode ++ i.ch ++ i.operands

/-- One row of opcode_table.json. -/
structure OpcodeRow where
  mnemonic : String
  pattern : CmdWord
  mask : CmdWord
  deriving DecidableEq, Repr

/-- opcode_table.json, row by row: a word is the row's command when its masked bits are the pattern. The decoder does not
read it; a statement says the two agree. -/
def opcodeRows : List OpcodeRow :=
  [⟨"ON", 0x1000000000000000#64, 0xF00FFFFF0000FF00#64⟩,
   ⟨"OFF", 0x2000000000000000#64, 0xF00FFFFFFFFFFF00#64⟩,
   ⟨"UPDATE", 0x3000000000000000#64, 0xF00FFFFFFFFFFFFF#64⟩,
   ⟨"REQUEST", 0x4000000000000000#64, 0xF00FFFFFFFFFFFFF#64⟩,
   ⟨"FILL", 0x5000000000000000#64, 0xF00FFFFFFFFFFFFF#64⟩,
   ⟨"SUBMIT", 0x6000000000000000#64, 0xF00FFFFFFFFFFFFE#64⟩,
   ⟨"SET", 0x7000000000000000#64, 0xF007000000000000#64⟩,
   ⟨"CAL", 0x8000000000000000#64, 0xF00FFFFFFFFFFFFF#64⟩,
   ⟨"READ", 0x9000000000000000#64, 0xF00FFFFFFFFFFF00#64⟩,
   ⟨"RDBUF", 0xA000000000000000#64, 0xF00FFFFE00000000#64⟩]

/-- The mnemonic of each command (30_encoding.md R93). -/
def Instr.mnemonic : Instr → String
  | .on _ _ _ => "ON"
  | .off _ _ => "OFF"
  | .update _ => "UPDATE"
  | .request _ => "REQUEST"
  | .fill _ => "FILL"
  | .submit _ _ => "SUBMIT"
  | .set _ _ _ _ => "SET"
  | .cal _ => "CAL"
  | .read _ _ => "READ"
  | .rdbuf _ _ _ => "RDBUF"

/-- What the decoder reads from an instruction whose nbits low bits are w and whose other bits are 0, numbered as
opcode_table.json numbers them (bit 0 the least significant; a command is one 64-bit word, R90). -/
def decodeTableWord (nbits w : Nat) : Option Instr :=
  match decode (BitVec.ofNat 64 (w % 2 ^ nbits)) with
  | .ok i => some i
  | .error _ => none

end Sys2Proof
end

