-- ==== Sys2Proof/Config.lean ====
section
/-! DEFINITION. The implementation parameters (00_scope.md R9), fixed at construction and never written (10_state.md R21),
and their well-formedness (70_reset_and_hazards.md R234). The parameters the spec marks OPEN are data, so that a statement
about every state is a statement about every configuration (log 3). -/

namespace Sys2Proof

/-- The byte order of a sample on the output bus, parameter OUT_BYTE_ORDER (20_memory.md R72; log 18). -/
inductive ByteOrder where
  | little
  | big
  deriving DecidableEq, Repr

/-- The parameters the whole block has one of. -/
structure BlockCfg where
  /-- BUF_LEN, samples per buffer (R9). -/
  bufLen : Nat
  /-- OUT_BYTE_ORDER (20_memory.md R72); read only by the byte lanes of the output bus. -/
  outByteOrder : ByteOrder
  /-- PORT_ADDR, where the command port sits in the host's map (R76); no rule reads it. -/
  portAddr : Nat
  /-- TU_SECONDS, the length of a TU (R10), as the fraction tuNum / tuDen of a second; no rule reads it (log 18). -/
  tuNum : Nat
  tuDen : Nat
  deriving DecidableEq, Repr

/-- The parameters each channel has (R9); durations, periods and spacings in TU. -/
structure ChanCfg where
  /-- HAS_METER (10_state.md R36). -/
  hasMeter : Bool
  /-- SPACING, the output capability's sample_period (R38). -/
  spacing : Period
  /-- MAX_AMP (R37); readable, used by no rule. -/
  maxAmp : Sample
  /-- TARGET_ADDR, the DMA target address (20_memory.md R74, R76). -/
  targetAddr : Nat
  /-- TRIG, the event line that triggers one beat (40_pipeline.md R120); opaque. -/
  trig : Nat
  /-- NOMINAL_PERIOD, the reset value of CFG_PERIOD (R28). -/
  nominalPeriod : Period
  attackTime : Instant
  attackAmp : Sample
  sustainAmp : Sample
  releaseTime : Instant
  releaseAmp : Sample
  stabilizeTime : Instant
  sampleTime : Instant
  deriving DecidableEq, Repr

/-- A whole configuration; N_CH is the number of channels listed. -/
structure Config where
  block : BlockCfg
  chans : List ChanCfg
  deriving DecidableEq, Repr

/-- BUF_LEN ≥ 1 (R234) and a beat count that fits ENG_BEAT's 32 bits (DEDUCED from 10_state.md R52, log 9). -/
abbrev BlockCfg.Valid (b : BlockCfg) : Prop := 1 ≤ b.bufLen ∧ b.bufLen < 2 ^ 32

/-- NOMINAL_PERIOD ≥ 1 and SPACING ≥ 1 (R234). -/
abbrev ChanCfg.Valid (k : ChanCfg) : Prop := 1 ≤ k.nominalPeriod.toNat ∧ 1 ≤ k.spacing.toNat

/-- The configuration premises of 70_reset_and_hazards.md R234, with N_CH's range 1 to 256 of 00_scope.md R9. -/
abbrev Config.Valid (c : Config) : Prop :=
  c.block.Valid ∧ 1 ≤ c.chans.length ∧ c.chans.length ≤ 256 ∧ ∀ k ∈ c.chans, k.Valid

/-- The channel of configuration E of 95_test_vectors.md, with a meter. DESIGN CHOICE (log 4): MAX_AMP, TARGET_ADDR,
TRIG and HAS_METER are the model's. -/
def ChanCfg.configE : ChanCfg where
  hasMeter := true
  spacing := 1
  maxAmp := 0xFFFF
  targetAddr := 0
  trig := 0
  nominalPeriod := 1000
  attackTime := 200
  attackAmp := 1000
  sustainAmp := 500
  releaseTime := 20
  releaseAmp := 300
  stabilizeTime := 50
  sampleTime := 100

/-- The configuration State.reset is built from: configuration E with N_CH = 1 and BUF_LEN = 512. DESIGN CHOICE (log 4):
the spec leaves every value of it OPEN, and no statement rests on it. -/
def Config.bench : Config where
  block := { bufLen := 512, outByteOrder := .little, portAddr := 0, tuNum := 1, tuDen := 1000 }
  chans := [ChanCfg.configE]

end Sys2Proof
end

