-- ==== Sys2Proof/Machine/State.lean ====
section
/-! DEFINITION. Everything the spec gives the machine (10_state.md R20 to R65), as plain data, and its value at reset
(R22, 70_reset_and_hazards.md R230, R231). A flag is a Bool; a buffer or descriptor number is one bit. -/

namespace Sys2Proof.Machine

/-- ENV_STATE (10_state.md R23, 42_envelope.md R150). Values 6 and 7 are never held, so they do not exist here (log 15). -/
inductive EnvState where
  | off
  | attack
  | sustain
  | release
  | waitStabilize
  | sampleFrequency
  deriving DecidableEq, Repr

/-- One transfer descriptor (R46). -/
structure Desc where
  /-- VALID: the engine may transfer from it. -/
  valid : Bool
  /-- BUF: the buffer it points at. -/
  buf : Slot
  deriving DecidableEq, Repr

/-- The frequency meter's capture record (R63). -/
structure Meter where
  /-- CAPF: a capture is pending. -/
  capf : Bool
  /-- MERR: the capture reports a measurement error. -/
  merr : Bool
  /-- MVAL: the measured period. -/
  mval : Period
  deriving DecidableEq, Repr

/-- CH_ERR, the channel's sticky fault bits (R59). -/
structure ChErr where
  protocol : Bool
  precond : Bool
  missed : Bool
  deriving DecidableEq, Repr

/-- RSP.STS (30_encoding.md R101). -/
inductive Status where
  | ok
  | illegal
  | protocol
  | precond
  deriving DecidableEq, Repr

/-- RSP (10_state.md R61, 30_encoding.md R101). -/
structure Response where
  /-- STS. -/
  sts : Status
  /-- SOME. -/
  isSome : Bool
  /-- VAL. -/
  val : BitVec 64
  deriving DecidableEq, Repr

/-- One sample of buffer memory at a sample address. -/
abbrev Cell := Nat × Sample

/-- The buffer memory of one channel (R62): its cells by strictly rising sample address, none holding the 0 that an
unlisted address reads as. The smallest unit the spec addresses is a whole sample (20_memory.md R72), so a cell holds
one (log 8). -/
abbrev Memory := List Cell

/-- One step of one agent of 60_exceptions.md R211. -/
inductive Event where
  /-- The host writes one command word (30_encoding.md R103). -/
  | command (w : CmdWord)
  /-- One trigger event of a channel's transfer engine (40_pipeline.md R120, R122). -/
  | beat (ch : ChanIdx)
  /-- A channel's meter records a capture (43_calibration.md R180). -/
  | capture (ch : ChanIdx) (merr : Bool) (mval : Period)
  /-- The time base sets NOW, to any instant (60_exceptions.md R214; log 16). -/
  | time (t : Instant)
  /-- RESET (70_reset_and_hazards.md R230). -/
  | reset
  deriving DecidableEq, Repr

/-- One channel: its constants, its registers (10_state.md §2 to §7), its buffer memory and its external state. -/
structure Chan where
  /-- The construction constants, among them the read-only registers of R29 to R38. -/
  cfg : ChanCfg
  /-- ENV_STATE (R23). -/
  envState : EnvState
  /-- ENV_VEL (R24). -/
  envVel : Velocity
  /-- ENV_HARM (R25). -/
  envHarm : Harmonic
  /-- DL_VALID (R26). -/
  dlValid : Bool
  /-- DL (R27). -/
  dl : Instant
  /-- CFG_PERIOD (R28). -/
  cfgPeriod : Period
  /-- CAPIE (R58). -/
  capie : Bool
  /-- TGT_PERIOD (R39). -/
  tgtPeriod : Period
  /-- TGT_AMP (R40). -/
  tgtAmp : Sample
  /-- TGT_INV (R41). -/
  tgtInv : Bool
  /-- PHASE (R42). -/
  phase : Period
  /-- CUR_BUF (R43). -/
  curBuf : Slot
  /-- NEXT_VALID (R44). -/
  nextValid : Bool
  /-- ACTIVE (R45). -/
  active : Slot
  /-- DESC0 (R46). -/
  desc0 : Desc
  /-- DESC1 (R46). -/
  desc1 : Desc
  /-- TCF (R47). -/
  tcf : Bool
  /-- DONE_IDX (R48). -/
  doneIdx : Slot
  /-- ENG_RUN (R49). -/
  engRun : Bool
  /-- ENG_PTR (R50). -/
  engPtr : Slot
  /-- ENG_BUF (R51). -/
  engBuf : Slot
  /-- ENG_BEAT (R52). -/
  engBeat : Period
  /-- FR_VALID (R53). -/
  frValid : Bool
  /-- FR_PERIOD (R54). -/
  frPeriod : Period
  /-- FR_AMP (R55). -/
  frAmp : Sample
  /-- FR_INV (R56). -/
  frInv : Bool
  /-- FR_PHASE (R57). -/
  frPhase : Period
  /-- CH_ERR (R59). -/
  chErr : ChErr
  /-- Buffer memory (R62). -/
  mem : Memory
  /-- External: the meter's capture record (R63); the meter's where HAS_METER = 1, nobody's otherwise (log 14). -/
  meter : Meter
  /-- External: the output capability's amplitude register, as written (R64; log 17). -/
  ampReg : Sample
  /-- External: the output history, oldest first (R64). -/
  out : List Sample
  deriving DecidableEq, Repr

/-- The whole block (R20), its inputs, and the agent steps still to come. -/
structure State where
  /-- The parameters of the whole block (log 3). -/
  block : BlockCfg
  /-- The channels, channel ch at position ch; N_CH is their number. -/
  chans : List Chan
  /-- GLB_ERR bit 0, ILLEGAL (R60). -/
  glbErr : Bool
  /-- RSP (R61). -/
  rsp : Response
  /-- NOW, the time input (R65, 60_exceptions.md R214). -/
  now : Instant
  /-- MODEL'S OWN FIELD: the agent steps already chosen, in their order; a run may choose on for ever (60_exceptions.md R212,
  Runs.lean; log 1). -/
  pending : List Event
  deriving DecidableEq, Repr

/-- The configuration a state carries. -/
def State.config (s : State) : Config := { block := s.block, chans := s.chans.map Chan.cfg }

/-- Reasons the machine stops. The block itself never halts (60_exceptions.md R222): both are raised only in states no
run reaches, and are safe. -/
inductive Fault where
  /-- A `div` or `mod` of a rule by 0, which 00_scope.md R12 gives no value: by ENV_HARM = 0 (OFF, UPDATE), by
  TGT_PERIOD = 0 (SUBMIT), by FR_PERIOD = 0 (FILL). Unreachable by 10_state.md R25 and R68; safe (log 11). -/
  | zeroDivisor
  /-- A BEAT while ENG_RUN = 1 and ENG_BEAT ≥ BUF_LEN: the sample does not exist. Unreachable by 10_state.md R52 and
  20_memory.md R73; safe (log 12). -/
  | noSuchSample
  deriving DecidableEq, Repr

/-- Reasons a step has no meaning. -/
inductive Refusal where
  /-- A command that has no meaning yet: raised by exec's arms alone, and by none of them now; safe. -/
  | notModelled (mnemonic : String)
  /-- The configuration violates 70_reset_and_hazards.md R234 ("A model refuses a configuration that violates them"):
  raised by every step of such a state; safe (log 9). -/
  | badConfig
  /-- An event of the engine or the meter of a channel that does not exist: no agent of 60_exceptions.md R211 takes
  that step; safe (log 13). -/
  | noSuchChannel
  /-- A capture on a channel without a meter: no agent of R211 takes that step; safe (log 13). -/
  | noMeter
  deriving DecidableEq, Repr

/-- A channel at reset (R22's reset column, R62), with the constants and the external state that RESET keeps
(70_reset_and_hazards.md R230). -/
def Chan.atReset (cfg : ChanCfg) (meter : Meter) (ampReg : Sample) (out : List Sample) : Chan where
  cfg := cfg
  envState := .off
  envVel := 0
  envHarm := 1
  dlValid := false
  dl := 0
  cfgPeriod := cfg.nominalPeriod
  tgtPeriod := cfg.nominalPeriod
  tgtAmp := 0
  tgtInv := false
  phase := 0
  curBuf := 0
  nextValid := true
  active := 0
  desc0 := { valid := true, buf := 0 }
  desc1 := { valid := true, buf := 1 }
  tcf := false
  doneIdx := 0
  engRun := true
  engPtr := 0
  engBuf := 0
  engBeat := 0
  frValid := false
  frPeriod := 0
  frAmp := 0
  frInv := false
  frPhase := 0
  capie := false
  chErr := { protocol := false, precond := false, missed := false }
  mem := []
  meter := meter
  ampReg := ampReg
  out := out

/-- A channel at the start of a run: at reset, with an empty output history. DESIGN CHOICE: the spec leaves the meter's
record and the amplitude register at power-on unspecified (10_state.md R63, R64); here both are 0 (log 5, log 6). -/
def Chan.powerOn (cfg : ChanCfg) : Chan :=
  Chan.atReset cfg { capf := false, merr := false, mval := 0 } 0 []

/-- The block at the start of a run, of any configuration (R230, R231). DESIGN CHOICE: NOW starts at 0 (log 7) and no
agent step is pending (log 1). -/
def State.powerOn (c : Config) : State where
  block := c.block
  chans := c.chans.map Chan.powerOn
  glbErr := false
  rsp := { sts := .ok, isSome := false, val := 0 }
  now := 0
  pending := []

/-- The machine right after reset, for the configuration named in log 4. -/
def State.reset : State := State.powerOn Config.bench

end Sys2Proof.Machine
end

