-- ==== Sys2Proof/Machine/Flags.lean ====
section
/-! DEFINITION. The fault bits and response codes (60_exceptions.md R201, R202; 30_encoding.md R101) and the interrupt
levels (60_exceptions.md R204, R205). -/

namespace Sys2Proof.Machine

/-- The fault kinds a command can raise (60_exceptions.md R202); MISSED is not among them, only the engine records it. -/
inductive FaultKind where
  | illegal
  | protocol
  | precond
  deriving DecidableEq, Repr

/-- The response code of each kind (R201). -/
def faultStatus : FaultKind → Status
  | .illegal => .illegal
  | .protocol => .protocol
  | .precond => .precond

/-- RSP.STS as its two bits (30_encoding.md R101): 0 OK, 1 ILLEGAL, 2 PROTOCOL, 3 PRECOND. -/
def statusCode : Status → BitVec 2
  | .ok => 0
  | .illegal => 1
  | .protocol => 2
  | .precond => 3

/-- `CH_ERR.PROTOCOL <- 1` (R201). -/
def Chan.setProtocolErr (c : Chan) : Chan := { c with chErr := { c.chErr with protocol := true } }

/-- `CH_ERR.PRECOND <- 1` (R201). -/
def Chan.setPrecondErr (c : Chan) : Chan := { c with chErr := { c.chErr with precond := true } }

/-- `CH_ERR.MISSED <- 1` (40_pipeline.md R123). -/
def Chan.setMissedErr (c : Chan) : Chan := { c with chErr := { c.chErr with missed := true } }

/-- TC_IRQ[ch] = TCF (R204). -/
def tcIrq (c : Chan) : Bool := c.tcf

/-- CAP_IRQ[ch] = CAPF ∧ CAPIE on a metered channel, 0 on any other (R205). -/
def capIrq (c : Chan) : Bool := c.cfg.hasMeter && (c.meter.capf && c.capie)

end Sys2Proof.Machine
end

