-- ==== Sys2Proof/Machine/Operands.lean ====
section
/-! DEFINITION. What the operands of a command name: a buffer or descriptor (10_state.md R43 to R46), a register of the
READ map (R22), a sample address (20_memory.md R71). -/

namespace Sys2Proof.Machine

/-- `1 - x` for a buffer or descriptor number. -/
def otherSlot (x : Slot) : Slot := 1 - x

/-- DESC[d] (10_state.md R46). -/
def Chan.desc (c : Chan) (d : Slot) : Desc := if d = 0 then c.desc0 else c.desc1

/-- `DESC[d] <- v`. -/
def Chan.setDesc (c : Chan) (d : Slot) (v : Desc) : Chan :=
  if d = 0 then { c with desc0 := v } else { c with desc1 := v }

/-- The sample address of (b, i) in a channel's buffer memory of 2 × BUF_LEN samples (20_memory.md R70, R71; log 8). -/
def sampleAddr (bufLen : Nat) (b : Slot) (i : Nat) : Nat := b.toNat * bufLen + i

/-- The registers of the READ map, by name (10_state.md R22). -/
inductive Reg where
  | ENV_STATE
  | ENV_VEL
  | ENV_HARM
  | DL_VALID
  | DL
  | CFG_PERIOD
  | CFG_ATTACK_TIME
  | CFG_ATTACK_AMP
  | CFG_SUSTAIN_AMP
  | CFG_RELEASE_TIME
  | CFG_RELEASE_AMP
  | CFG_STABILIZE_TIME
  | CFG_SAMPLE_TIME
  | HAS_METER
  | MAX_AMP
  | SPACING
  | TGT_PERIOD
  | TGT_AMP
  | TGT_INV
  | PHASE
  | CUR_BUF
  | NEXT_VALID
  | ACTIVE
  | DESC0
  | DESC1
  | TCF
  | DONE_IDX
  | ENG_RUN
  | ENG_PTR
  | ENG_BUF
  | ENG_BEAT
  | FR_VALID
  | FR_PERIOD
  | FR_AMP
  | FR_INV
  | FR_PHASE
  | CAPIE
  | CH_ERR
  | GLB_ERR
  deriving DecidableEq, Repr

/-- The map in index order, from REG 0x00 (10_state.md R22): eight registers a line. -/
def regMap : List Reg :=
  [.ENV_STATE, .ENV_VEL, .ENV_HARM, .DL_VALID, .DL, .CFG_PERIOD, .CFG_ATTACK_TIME, .CFG_ATTACK_AMP,
   .CFG_SUSTAIN_AMP, .CFG_RELEASE_TIME, .CFG_RELEASE_AMP, .CFG_STABILIZE_TIME, .CFG_SAMPLE_TIME, .HAS_METER, .MAX_AMP, .SPACING,
   .TGT_PERIOD, .TGT_AMP, .TGT_INV, .PHASE, .CUR_BUF, .NEXT_VALID, .ACTIVE, .DESC0,
   .DESC1, .TCF, .DONE_IDX, .ENG_RUN, .ENG_PTR, .ENG_BUF, .ENG_BEAT, .FR_VALID,
   .FR_PERIOD, .FR_AMP, .FR_INV, .FR_PHASE, .CAPIE, .CH_ERR, .GLB_ERR]

/-- The register a REG operand names; none for the unassigned indices 0x27 to 0xFF. -/
def regOfIndex (r : BitVec 8) : Option Reg := regMap[r.toNat]?

/-- One bit as READ returns it. -/
def bitVal (b : Bool) : BitVec 64 := if b then 1 else 0

/-- ENV_STATE's code (10_state.md R23). -/
def envStateCode : EnvState → BitVec 64
  | .off => 0
  | .attack => 1
  | .sustain => 2
  | .release => 3
  | .waitStabilize => 4
  | .sampleFrequency => 5

/-- A descriptor as READ returns it: bit 0 VALID, bit 1 BUF (10_state.md R46). -/
def descVal (d : Desc) : BitVec 64 := (d.buf ++ BitVec.ofBool d.valid).zeroExtend 64

/-- CH_ERR as READ returns it: bit 0 PROTOCOL, bit 1 PRECOND, bit 2 MISSED (10_state.md R59). -/
def chErrVal (e : ChErr) : BitVec 64 :=
  (BitVec.ofBool e.missed ++ BitVec.ofBool e.precond ++ BitVec.ofBool e.protocol).zeroExtend 64

/-- The value of each register of channel c, zero-extended (10_state.md R22, 44_access.md R190); GLB_ERR is the global
register whatever the channel. -/
def regVal (glbErr : Bool) (c : Chan) : Reg → BitVec 64
  | .ENV_STATE => envStateCode c.envState
  | .ENV_VEL => c.envVel.zeroExtend 64
  | .ENV_HARM => c.envHarm.zeroExtend 64
  | .DL_VALID => bitVal c.dlValid
  | .DL => c.dl
  | .CFG_PERIOD => c.cfgPeriod.zeroExtend 64
  | .CFG_ATTACK_TIME => c.cfg.attackTime
  | .CFG_ATTACK_AMP => c.cfg.attackAmp.zeroExtend 64
  | .CFG_SUSTAIN_AMP => c.cfg.sustainAmp.zeroExtend 64
  | .CFG_RELEASE_TIME => c.cfg.releaseTime
  | .CFG_RELEASE_AMP => c.cfg.releaseAmp.zeroExtend 64
  | .CFG_STABILIZE_TIME => c.cfg.stabilizeTime
  | .CFG_SAMPLE_TIME => c.cfg.sampleTime
  | .HAS_METER => bitVal c.cfg.hasMeter
  | .MAX_AMP => c.cfg.maxAmp.zeroExtend 64
  | .SPACING => c.cfg.spacing.zeroExtend 64
  | .TGT_PERIOD => c.tgtPeriod.zeroExtend 64
  | .TGT_AMP => c.tgtAmp.zeroExtend 64
  | .TGT_INV => bitVal c.tgtInv
  | .PHASE => c.phase.zeroExtend 64
  | .CUR_BUF => c.curBuf.zeroExtend 64
  | .NEXT_VALID => bitVal c.nextValid
  | .ACTIVE => c.active.zeroExtend 64
  | .DESC0 => descVal c.desc0
  | .DESC1 => descVal c.desc1
  | .TCF => bitVal c.tcf
  | .DONE_IDX => c.doneIdx.zeroExtend 64
  | .ENG_RUN => bitVal c.engRun
  | .ENG_PTR => c.engPtr.zeroExtend 64
  | .ENG_BUF => c.engBuf.zeroExtend 64
  | .ENG_BEAT => c.engBeat.zeroExtend 64
  | .FR_VALID => bitVal c.frValid
  | .FR_PERIOD => c.frPeriod.zeroExtend 64
  | .FR_AMP => c.frAmp.zeroExtend 64
  | .FR_INV => bitVal c.frInv
  | .FR_PHASE => c.frPhase.zeroExtend 64
  | .CAPIE => bitVal c.capie
  | .CH_ERR => chErrVal c.chErr
  | .GLB_ERR => bitVal glbErr

end Sys2Proof.Machine
end

