-- ==== Sys2Proof/Machine/Ops.lean ====
section
/-! DEFINITION. The operations the rules share: buffer memory (20_memory.md R71), the output write (R74), SetTarget
(40_pipeline.md R114), raising a fault (60_exceptions.md R201: the block's one exception entry, and R209: it has no
return), and running a command on the channel it selects (30_encoding.md R97 step 3, R101). -/

namespace Sys2Proof.Machine

/-- The canonical form of buffer memory: sample addresses strictly rise and no listed sample is the 0 an unlisted
address reads as. -/
abbrev Memory.wf (m : Memory) : Prop :=
  m.Pairwise (fun p q => p.1 < q.1) ∧ ∀ p ∈ m, p.2 ≠ 0

/-- The sample at a sample address; an unlisted one is 0 (10_state.md R62). -/
def Memory.read : Memory → Nat → Sample
  | [], _ => 0
  | (k, v) :: m, a => if k = a then v else Memory.read m a

/-- One sample written, the canonical form kept: a 0 is not listed. -/
def Memory.write : Memory → Nat → Sample → Memory
  | [], a, v => if v = 0 then [] else [(a, v)]
  | (k, w) :: m, a, v =>
    if a < k then (if v = 0 then (k, w) :: m else (a, v) :: (k, w) :: m)
    else if a = k then (if v = 0 then m else (a, v) :: m)
    else (k, w) :: Memory.write m a v

/-- `MemRead(ch, b, i)` (20_memory.md R71); none where index i is not inside the buffer (R73). -/
def Chan.memRead (bufLen : Nat) (c : Chan) (b : Slot) (i : Nat) : Option Sample :=
  if i < bufLen then some (c.mem.read (sampleAddr bufLen b i)) else none

/-- `MemWrite(ch, b, i, v)` (20_memory.md R71). -/
def memWrite (bufLen : Nat) (m : Memory) (b : Slot) (i : Nat) (v : Sample) : Memory :=
  m.write (sampleAddr bufLen b i) v

/-- `OutWrite(ch, v)`: the amplitude register takes v and the history records it (20_memory.md R74). -/
def Chan.outWrite (c : Chan) (v : Sample) : Chan := { c with ampReg := v, out := c.out ++ [v] }

/-- The two bytes of an output write on the output bus, from TARGET_ADDR[ch] up: bits [7:0] at the lowest address
unless OUT_BYTE_ORDER is big-endian (20_memory.md R72). -/
def outLanes (order : ByteOrder) (targetAddr : Nat) (v : Sample) : List Host.Cell :=
  match order with
  | .little => [(targetAddr, v.extractLsb' 0 8), (targetAddr + 1, v.extractLsb' 8 8)]
  | .big => [(targetAddr, v.extractLsb' 8 8), (targetAddr + 1, v.extractLsb' 0 8)]

/-- `SetTarget(ch, p, a, i)` (40_pipeline.md R114). -/
def Chan.setTarget (c : Chan) (p : Period) (a : Sample) (i : Bool) : Chan :=
  { c with tgtPeriod := p, tgtAmp := a, tgtInv := i }

/-- `respond(OK, 1, v)` (30_encoding.md R101). -/
def okSome (v : BitVec 64) : Response := { sts := .ok, isSome := true, val := v }

/-- `respond(OK, 0, v)` (30_encoding.md R101). -/
def okNone (v : BitVec 64) : Response := { sts := .ok, isSome := false, val := v }

/-- How a command ends on its channel. -/
inductive Reply where
  /-- `respond`: the channel after the command, and the response. -/
  | done (c : Chan) (r : Response)
  /-- `raise F(kind)`. -/
  | refuse (k : FaultKind)
  /-- The rule gives no next state; only in states no run reaches. -/
  | stop (f : Fault)

/-- The reply of a rule that divides: where the divisor is 0 there is no next state (00_scope.md R12, log 11). -/
def replyOr (o : Option Chan) (r : Chan → Response) : Reply :=
  match o with
  | none => .stop .zeroDivisor
  | some c => .done c (r c)

/-- The sticky bit `raise F(kind)` records: GLB_ERR.ILLEGAL, or the bit of channel n (60_exceptions.md R201). -/
def State.recordFault (s : State) (k : FaultKind) (n : Nat) : State :=
  match k with
  | .illegal => { s with glbErr := true }
  | .protocol => { s with chans := s.chans.modify n Chan.setProtocolErr }
  | .precond => { s with chans := s.chans.modify n Chan.setPrecondErr }

/-- `raise F(kind)` for a command of channel n: the sticky bit, the response code with SOME 0 and VAL 0, nothing else
(60_exceptions.md R201). -/
def State.raise (s : State) (k : FaultKind) (n : Nat) : State :=
  { s.recordFault k n with rsp := { sts := faultStatus k, isSome := false, val := 0 } }

/-- Ends a command of channel n: the channel's new value and the response. -/
def State.finish (s : State) (n : Nat) (c : Chan) (r : Response) : State :=
  { s with chans := s.chans.set n c, rsp := r }

/-- Runs a command's rule on the channel its CH field selects; CH ≥ N_CH is ILLEGAL (30_encoding.md R96, R97 step 3). -/
def onChannel (ch : ChanIdx) (s : State) (rule : Chan → Reply) : Host.Outcome State Fault Refusal :=
  match s.chans[ch.toNat]? with
  | none => .next (s.raise .illegal ch.toNat)
  | some c =>
    match rule c with
    | .done c' r => .next (s.finish ch.toNat c' r)
    | .refuse k => .next (s.raise k ch.toNat)
    | .stop f => .fault f

end Sys2Proof.Machine
end

