-- ==== Sys2Proof/Machine/Access.lean ====
section
/-! DEFINITION. Register and buffer access: READ, RDBUF (44_access.md R190, R191). -/

namespace Sys2Proof.Machine

/-- READ on its channel (R190): an unassigned register is ILLEGAL; no side effect. -/
def readRule (glbErr : Bool) (reg : BitVec 8) (c : Chan) : Reply :=
  match regOfIndex reg with
  | none => .refuse .illegal
  | some r => .done c (okSome (regVal glbErr c r))

/-- RDBUF on its channel (R191): INDEX ≥ BUF_LEN is ILLEGAL; no side effect. -/
def rdbufRule (bufLen : Nat) (buf : Slot) (index : BitVec 32) (c : Chan) : Reply :=
  match c.memRead bufLen buf index.toNat with
  | none => .refuse .illegal
  | some v => .done c (okSome (v.zeroExtend 64))

/-- READ (R190). -/
def execRead (ch : ChanIdx) (reg : BitVec 8) (s : State) : Host.Outcome State Fault Refusal :=
  onChannel ch s (readRule s.glbErr reg)

/-- RDBUF (R191). -/
def execRdbuf (ch : ChanIdx) (buf : Slot) (index : BitVec 32) (s : State) : Host.Outcome State Fault Refusal :=
  onChannel ch s (rdbufRule s.block.bufLen buf index)

end Sys2Proof.Machine
end

