-- ==== Sys2Proof/Machine/Calibration.lean ====
section
/-! DEFINITION. The Frequency Calibration Filter, CAL, and the meter's contract (43_calibration.md R180 to R186). -/

namespace Sys2Proof.Machine

/-- `|m - P|` on naturals (00_scope.md R12). -/
def absDiff (m p : Nat) : Nat := if m < p then p - m else m - p

/-- The outlier test: rejected when `10 * |m - P| > P` (R182). -/
def isOutlier (p m : Period) : Bool := decide (p.toNat < 10 * absDiff m.toNat p.toNat)

/-- `Blend(P, m) = (9 * P + m + 5) div 10` (R183). -/
def blend (p m : Period) : Period := BitVec.ofNat 32 ((9 * p.toNat + m.toNat + 5) / 10)

/-- The meter's step CAPTURE(ch, e, m) (R180): an unread record is overwritten. -/
def meterCapture (e : Bool) (m : Period) (c : Chan) : Chan :=
  { c with meter := { capf := true, merr := e, mval := m } }

/-- `MeterAck(ch)` (R181). -/
def meterAck (c : Chan) : Chan := { c with meter := { c.meter with capf := false, merr := false } }

/-- CAL is active only on a metered channel in SampleFrequency (R184). -/
def calArmed (c : Chan) : Bool := c.cfg.hasMeter && decide (c.envState = .sampleFrequency)

/-- CAL on its channel (R184). -/
def calRule (c : Chan) : Reply :=
  if calArmed c = false then .done c (okNone 0)
  else if c.meter.capf = false ∨ c.meter.merr = true then .done (meterAck c) (okNone 1)
  else if isOutlier c.cfgPeriod c.meter.mval then .done (meterAck c) (okNone 2)
  else .done { meterAck c with cfgPeriod := blend c.cfgPeriod c.meter.mval }
    (okSome ((blend c.cfgPeriod c.meter.mval).zeroExtend 64))

/-- CAL (R184). -/
def execCal (ch : ChanIdx) (s : State) : Host.Outcome State Fault Refusal :=
  onChannel ch s calRule

end Sys2Proof.Machine
end

