-- ==== Sys2Proof/Machine/Envelope.lean ====
section
/-! DEFINITION. The Envelope Controller: ON, OFF, UPDATE (42_envelope.md R150 to R160). -/

namespace Sys2Proof.Machine

/-- `Base(s)` (R151). -/
def baseAmp (k : ChanCfg) : EnvState → Sample
  | .attack => k.attackAmp
  | .sustain => k.sustainAmp
  | .release => k.releaseAmp
  | .off => 0
  | .waitStabilize => 0
  | .sampleFrequency => 0

/-- `apply_velocity(a, v) = (a * min(v, 127)) div 127` (R152); the result is at most a, so it fits. -/
def applyVelocity (a : Sample) (v : Velocity) : Sample :=
  BitVec.ofNat 16 (a.toNat * min v.toNat 127 / 127)

/-- The harmonic a state drives at: ENV_HARM in a note state, 1 in a no-note state (R153). -/
def driveHarm (c : Chan) : Harmonic :=
  match c.envState with
  | .attack => c.envHarm
  | .sustain => c.envHarm
  | .release => c.envHarm
  | .off => 1
  | .waitStabilize => 1
  | .sampleFrequency => 1

/-- `Recompute(ch)` (R153); none where it would divide by a harmonic of 0 (log 11). -/
def recompute (c : Chan) : Option Chan :=
  if (driveHarm c).toNat = 0 then none
  else some (c.setTarget (BitVec.ofNat 32 (c.cfgPeriod.toNat / (driveHarm c).toNat))
    (applyVelocity (baseAmp c.cfg c.envState) c.envVel) (decide (c.envState = .release)))

/-- The response of a transition that returns its new deadline (30_encoding.md R102). -/
def deadlineOf (c : Chan) : Response := okSome c.dl

/-- The response of a transition or a no-op that returns nothing (R102). -/
def nothingOf (_ : Chan) : Response := okNone 0

/-- Entry to Attack from a state that takes ON (R155); leaving SampleFrequency clears CAPIE (R154). -/
def startAttack (now : Instant) (vel : Velocity) (harm : Harmonic) (c : Chan) : Reply :=
  replyOr (recompute { c with
    capie := if c.envState = .sampleFrequency then false else c.capie
    envState := .attack
    envVel := vel
    envHarm := harm
    dl := now + c.cfg.attackTime
    dlValid := true }) deadlineOf

/-- ON on its channel (R155): PRECOND is checked before the state. -/
def onRule (now : Instant) (vel : Velocity) (harm : Harmonic) (c : Chan) : Reply :=
  if harm.toNat = 0 ∨ c.cfgPeriod.toNat / harm.toNat = 0 then .refuse .precond
  else match c.envState with
    | .attack => .done c (okNone 0)
    | .sustain => .done c (okNone 0)
    | .off => startAttack now vel harm c
    | .release => startAttack now vel harm c
    | .waitStabilize => startAttack now vel harm c
    | .sampleFrequency => startAttack now vel harm c

/-- Entry to Release (R156): velocity and harmonic are kept. -/
def startRelease (now : Instant) (c : Chan) : Reply :=
  replyOr (recompute { c with
    envState := .release
    dl := now + c.cfg.releaseTime
    dlValid := true }) deadlineOf

/-- OFF on its channel (R156); the VEL operand is never read. -/
def offRule (now : Instant) (c : Chan) : Reply :=
  match c.envState with
  | .attack => startRelease now c
  | .sustain => startRelease now c
  | .off => .done c (okNone 0)
  | .release => .done c (okNone 0)
  | .waitStabilize => .done c (okNone 0)
  | .sampleFrequency => .done c (okNone 0)

/-- The transition that is due when UPDATE finds its deadline reached (R157). -/
def updateDue (c : Chan) : Reply :=
  match c.envState with
  | .attack => replyOr (recompute { c with envState := .sustain, dlValid := false }) nothingOf
  | .release =>
    if c.cfg.hasMeter then
      replyOr (recompute { c with
        envState := .waitStabilize
        envVel := 0
        envHarm := 1
        dl := c.dl + c.cfg.stabilizeTime }) deadlineOf
    else
      replyOr (recompute { c with envState := .off, envVel := 0, envHarm := 1, dlValid := false }) nothingOf
  | .waitStabilize =>
    replyOr (recompute { c with
      envState := .sampleFrequency
      dl := c.dl + c.cfg.sampleTime
      capie := true }) deadlineOf
  | .sampleFrequency =>
    replyOr (recompute { c with envState := .off, dlValid := false, capie := false }) nothingOf
  | .off => .done c (okNone 0)
  | .sustain => .done c (okNone 0)

/-- UPDATE on its channel (R157): a no-op without a deadline or before it. -/
def updateRule (now : Instant) (c : Chan) : Reply :=
  if c.dlValid = false ∨ now < c.dl then .done c (okNone 0) else updateDue c

/-- ON (R155). -/
def execOn (ch : ChanIdx) (vel : Velocity) (harm : Harmonic) (s : State) : Host.Outcome State Fault Refusal :=
  onChannel ch s (onRule s.now vel harm)

/-- OFF (R156). -/
def execOff (ch : ChanIdx) (_vel : Velocity) (s : State) : Host.Outcome State Fault Refusal :=
  onChannel ch s (offRule s.now)

/-- UPDATE (R157). -/
def execUpdate (ch : ChanIdx) (s : State) : Host.Outcome State Fault Refusal :=
  onChannel ch s (updateRule s.now)

end Sys2Proof.Machine
end

