-- ==== Sys2Proof/Machine/Pipeline.lean ====
section
/-! DEFINITION. The Waveform Buffer Pipeline: REQUEST, SUBMIT, SET, and the descriptor fetch they share with the engine
(40_pipeline.md R111 to R114, R121). -/

namespace Sys2Proof.Machine

/-- `fetch(ch, p)` (R121): run descriptor p if it is valid, else pause. -/
def fetch (c : Chan) (p : Slot) : Chan :=
  if (c.desc p).valid then
    { c with engPtr := p, engRun := true, engBuf := (c.desc p).buf, engBeat := 0 }
  else { c with engPtr := p, engRun := false }

/-- The completion reclaimed: TCF cleared and the descriptor that just finished invalidated (R111). -/
def reclaim (c : Chan) : Chan :=
  { c with tcf := false }.setDesc c.doneIdx { c.desc c.doneIdx with valid := false }

/-- The hand-out: the queued buffer becomes current and the vacated one carries the targets for its fill (R111). -/
def handOut (c : Chan) : Chan :=
  { c with
    curBuf := otherSlot c.curBuf
    active := otherSlot c.active
    nextValid := false
    frValid := true
    frPeriod := c.tgtPeriod
    frAmp := c.tgtAmp
    frInv := c.tgtInv
    frPhase := c.phase }

/-- REQUEST on its channel (R111). -/
def requestRule (c : Chan) : Reply :=
  if c.tcf = false then .done c (okNone 0)
  else if c.nextValid = false then .done (reclaim c) (okNone 0)
  else .done (handOut (reclaim c)) (okSome (c.curBuf.zeroExtend 64))

/-- The phase after a SUBMIT, `(PHASE + BUF_LEN * SPACING) mod TGT_PERIOD` computed exactly (R112). -/
def advancePhase (bufLen : Nat) (spacing phase period : Period) : Period :=
  BitVec.ofNat 32 ((phase.toNat + bufLen * spacing.toNat) % period.toNat)

/-- The buffer queued: the idle descriptor points at it and is valid, the phase advances (R112). -/
def queueBuffer (bufLen : Nat) (buf : Slot) (c : Chan) : Chan :=
  { c.setDesc (otherSlot c.active) { valid := true, buf := buf } with
    phase := advancePhase bufLen c.cfg.spacing c.phase c.tgtPeriod
    nextValid := true }

/-- A paused engine re-fetches the descriptor it is paused at (R112); a running one is not disturbed. -/
def resume (c : Chan) : Chan := if c.engRun then c else fetch c c.engPtr

/-- SUBMIT on its channel (R112). -/
def submitRule (bufLen : Nat) (buf : Slot) (c : Chan) : Reply :=
  if c.nextValid = true ∨ c.frValid = true ∨ buf ≠ otherSlot c.curBuf then .refuse .protocol
  else if c.tgtPeriod.toNat = 0 then .stop .zeroDivisor
  else .done (resume (queueBuffer bufLen buf c)) (okNone 0)

/-- SET on its channel (R113). -/
def setRule (period : Period) (amp : Sample) (inv : Bool) (c : Chan) : Reply :=
  if period = 0 then .refuse .precond else .done (c.setTarget period amp inv) (okNone 0)

/-- REQUEST (R111). -/
def execRequest (ch : ChanIdx) (s : State) : Host.Outcome State Fault Refusal :=
  onChannel ch s requestRule

/-- SUBMIT (R112). -/
def execSubmit (ch : ChanIdx) (buf : Slot) (s : State) : Host.Outcome State Fault Refusal :=
  onChannel ch s (submitRule s.block.bufLen buf)

/-- SET (R113). -/
def execSet (ch : ChanIdx) (period : Period) (amp : Sample) (inv : Bool) (s : State) :
    Host.Outcome State Fault Refusal :=
  onChannel ch s (setRule period amp inv)

end Sys2Proof.Machine
end

