-- ==== Sys2Proof/Machine/Synthesis.lean ====
section
/-! DEFINITION. Buffer Synthesis: FILL (41_synthesis.md R140, R141). -/

namespace Sys2Proof.Machine

/-- `t_i = (F + i * S) mod P`, exact (R140). -/
def synthTime (p f s : Period) (i : Nat) : Nat := (f.toNat + i * s.toNat) % p.toNat

/-- Sample i of `Synth(P, A, I, F, S)`: A when `(2 * t_i > P) != (I = 1)`, else 0 (R140). -/
def synthSample (p : Period) (a : Sample) (inv : Bool) (f s : Period) (i : Nat) : Sample :=
  if decide (p.toNat < 2 * synthTime p f s i) != inv then a else 0

/-- The loop of R141 over the indices below n, in rising order: MemWrite of `sample i` at index i of buffer b. -/
def fillUpTo (bufLen : Nat) (b : Slot) (sample : Nat → Sample) (m : Memory) : Nat → Memory
  | 0 => m
  | n + 1 => memWrite bufLen (fillUpTo bufLen b sample m n) b n (sample n)

/-- The channel's synthesized samples, from its fill request and its spacing (R141). -/
def requestSample (c : Chan) (i : Nat) : Sample :=
  synthSample c.frPeriod c.frAmp c.frInv c.frPhase c.cfg.spacing i

/-- FILL on its channel (R141); a request of period 0, which no run reaches, has no samples (log 11). -/
def fillRule (bufLen : Nat) (c : Chan) : Reply :=
  if c.frValid = false then .refuse .protocol
  else if c.frPeriod.toNat = 0 then .stop .zeroDivisor
  else .done { c with
      mem := fillUpTo bufLen (otherSlot c.curBuf) (requestSample c) c.mem bufLen
      frValid := false }
    (okSome ((otherSlot c.curBuf).zeroExtend 64))

/-- FILL (R141). -/
def execFill (ch : ChanIdx) (s : State) : Host.Outcome State Fault Refusal :=
  onChannel ch s (fillRule s.block.bufLen)

end Sys2Proof.Machine
end

