-- ==== Sys2Proof/Machine/Dispatch.lean ====
section
/-! DEFINITION. The meaning of each command (30_encoding.md R93), one arm per constructor. -/

namespace Sys2Proof.Machine

def exec (i : Instr) (s : State) : Host.Outcome State Fault Refusal :=
  match i with
  | .on ch vel harm => Sys2Proof.Machine.execOn ch vel harm s
  | .off ch vel => Sys2Proof.Machine.execOff ch vel s
  | .update ch => Sys2Proof.Machine.execUpdate ch s
  | .request ch => Sys2Proof.Machine.execRequest ch s
  | .fill ch => Sys2Proof.Machine.execFill ch s
  | .submit ch buf => Sys2Proof.Machine.execSubmit ch buf s
  | .set ch period amp inv => Sys2Proof.Machine.execSet ch period amp inv s
  | .cal ch => Sys2Proof.Machine.execCal ch s
  | .read ch reg => Sys2Proof.Machine.execRead ch reg s
  | .rdbuf ch buf index => Sys2Proof.Machine.execRdbuf ch buf index s

end Sys2Proof.Machine
end

