-- ==== Sys2Proof/Machine/Engine.lean ====
section
/-! DEFINITION. The transfer engine's step, BEAT (40_pipeline.md R120 to R124). -/

namespace Sys2Proof.Machine

/-- MISSED is recorded when a completion finds TCF already 1 (R123). -/
def recordMissed (c : Chan) : Chan := if c.tcf then c.setMissedErr else c

/-- `complete(ch)` (R123): record MISSED, set TCF and DONE_IDX, move to the other descriptor and fetch it. -/
def complete (c : Chan) : Chan :=
  fetch { recordMissed c with tcf := true, doneIdx := c.engPtr } (otherSlot c.engPtr)

/-- One sample moved to the output, the beat counted (R122). -/
def transfer (c : Chan) (v : Sample) : Chan := { c.outWrite v with engBeat := c.engBeat + 1 }

/-- BEAT of a running engine (R122); none where the sample does not exist (log 12). -/
def beatRunning (bufLen : Nat) (c : Chan) : Option Chan :=
  match c.memRead bufLen c.engBuf c.engBeat.toNat with
  | none => none
  | some v =>
    if (transfer c v).engBeat.toNat = bufLen then some (complete (transfer c v)) else some (transfer c v)

/-- One trigger event: a BEAT while the engine runs, no effect while it is paused (R120, R124). -/
def beat (bufLen : Nat) (c : Chan) : Option Chan :=
  if c.engRun then beatRunning bufLen c else some c

end Sys2Proof.Machine
end

