-- ==== Sys2Proof/Machine/Agents.lean ====
section
/-! DEFINITION. One atomic step of each agent (60_exceptions.md R211, R212): the host's command word, the engine's beat,
the meter's capture, the time base, RESET; and where the host's next word stands. -/

namespace Sys2Proof.Machine

/-- The host writes one command word (30_encoding.md R103): the decoder's command runs; a word that is no command is
ILLEGAL (R94, R95, R97). -/
def runCommand (w : CmdWord) (s : State) : Host.Outcome State Fault Refusal :=
  match decode w with
  | .error _ => .next (s.raise .illegal 0)
  | .ok i => exec i s

/-- One trigger event of channel ch (40_pipeline.md R120). -/
def runBeat (ch : ChanIdx) (s : State) : Host.Outcome State Fault Refusal :=
  match s.chans[ch.toNat]? with
  | none => .refused .noSuchChannel
  | some c =>
    match beat s.block.bufLen c with
    | none => .fault .noSuchSample
    | some c' => .next { s with chans := s.chans.set ch.toNat c' }

/-- A capture by the meter of channel ch (43_calibration.md R180). -/
def runCapture (ch : ChanIdx) (e : Bool) (m : Period) (s : State) : Host.Outcome State Fault Refusal :=
  match s.chans[ch.toNat]? with
  | none => .refused .noSuchChannel
  | some c =>
    if c.cfg.hasMeter then .next { s with chans := s.chans.set ch.toNat (meterCapture e m c) }
    else .refused .noMeter

/-- RESET of one channel: every register and sample at its reset value; the constants and the external state kept
(70_reset_and_hazards.md R230). -/
def resetChannel (c : Chan) : Chan := Chan.atReset c.cfg c.meter c.ampReg c.out

/-- RESET (70_reset_and_hazards.md R230): NOW and the steps to come are not the block's to change. -/
def runReset (s : State) : State :=
  { s with chans := s.chans.map resetChannel, glbErr := false, rsp := okNone 0 }

/-- One step of one agent. -/
def runEvent (e : Event) (s : State) : Host.Outcome State Fault Refusal :=
  match e with
  | .command w => runCommand w s
  | .beat ch => runBeat ch s
  | .capture ch e m => runCapture ch e m s
  | .time t => .next { s with now := t }
  | .reset => .next (runReset s)

/-- The next agent step of the list; with none to come no agent steps and the state stays, which is no step of a run
(60_exceptions.md R212, Runs.lean; log 2). -/
def runPending (s : State) : Host.Outcome State Fault Refusal :=
  match s.pending with
  | [] => .next s
  | e :: rest => runEvent e { s with pending := rest }

/-- An agent step placed before the steps to come, as the very next one. -/
def placeEvent (e : Event) (s : State) : State := { s with pending := e :: s.pending }

end Sys2Proof.Machine
end

