-- ==== Sys2Proof/Machine/Step.lean ====
section
/-! DEFINITION. One step of the block: the next agent step of the run, taken atomically (60_exceptions.md R212), unless the
configuration violates 70_reset_and_hazards.md R234. -/

namespace Sys2Proof.Machine

/-- One step. -/
def step (s : State) : Host.Outcome State Fault Refusal :=
  if s.config.Valid then runPending s else .refused .badConfig

/-- s with the instruction whose nbits low bits are w (opcode_table.json's numbering) as the host's next command word. -/
def State.withFetchWord (s : State) (nbits w : Nat) : State :=
  placeEvent (.command (BitVec.ofNat 64 (w % 2 ^ nbits))) s

end Sys2Proof.Machine
end

