-- ==== Sys2Proof/Machine/Runs.lean ====
section
/-! DEFINITION. Runs of the block (60_exceptions.md R211, R212): finite or infinite sequences of enabled agent steps, in any
order, from a reset state. A run chooses its agent steps one at a time, so it is not bounded by the list State.pending, and
it never takes the idle step of an empty list (logs 1, 2). -/

namespace Sys2Proof.Machine

/-- One step of one agent: the block's step with that agent step as the next one. -/
def agentStep (e : Event) (s : State) : Host.Outcome State Fault Refusal := step (placeEvent e s)

/-- The enabled column of 60_exceptions.md R211. -/
abbrev enabled (s : State) : Event → Prop
  | .command _ => True
  | .beat ch => ∃ c, s.chans[ch.toNat]? = some c ∧ c.engRun = true
  | .capture ch _ _ => ∃ c, s.chans[ch.toNat]? = some c ∧ c.cfg.hasMeter = true
  | .time _ => True
  | .reset => True

/-- Where a run may start (70_reset_and_hazards.md R230): a well-formed configuration, a state that RESET leaves as it is,
an empty output history. The meter's records, the amplitude registers and NOW hold any value. -/
abbrev IsStart (s : State) : Prop :=
  s.config.Valid ∧ s.pending = [] ∧ runReset s = s ∧ ∀ c ∈ s.chans, c.out = []

/-- A run of `some l` steps, or an infinite one where the length is none, has a step from its n-th state. -/
abbrev hasStep (len : Option Nat) (n : Nat) : Prop := ∀ l ∈ len, n < l

/-- It has an n-th state, counted from 0: a cut of the run (60_exceptions.md R222). -/
abbrev hasState (len : Option Nat) (n : Nat) : Prop := ∀ l ∈ len, n ≤ l

/-- A run: the states it goes through and the agent steps between them. -/
abbrev IsRun (len : Option Nat) (states : Nat → State) (events : Nat → Event) : Prop :=
  IsStart (states 0) ∧
  ∀ n, hasStep len n → enabled (states n) (events n) ∧ agentStep (events n) (states n) = .next (states (n + 1))

end Sys2Proof.Machine
end

