-- ==== Sys2Proof/Safety.lean ====
section
/-! DEFINITION. What claims speak of: runs with no fault recorded (60_exceptions.md R201, R223), who owns a buffer
(10_state.md R44), and the invariants of 10_state.md R52, R62 and R66 to R68. -/

namespace Sys2Proof.Machine

/-- No fault bit of the channel is set. -/
abbrev Chan.NoFault (c : Chan) : Prop :=
  c.chErr.protocol = false ∧ c.chErr.precond = false ∧ c.chErr.missed = false

/-- "No fault recorded" (60_exceptions.md R201, R223). -/
abbrev State.NoFault (s : State) : Prop := s.glbErr = false ∧ ∀ c ∈ s.chans, c.NoFault

/-- The SW-held buffer (10_state.md R44): `1 - CUR_BUF` while NEXT_VALID = 0, none while NEXT_VALID = 1. -/
def swHeld (c : Chan) : Option Slot := if c.nextValid then none else some (otherSlot c.curBuf)

/-- The queued buffer (R44): `1 - CUR_BUF` while NEXT_VALID = 1. -/
def queued (c : Chan) : Option Slot := if c.nextValid then some (otherSlot c.curBuf) else none

/-- The states with an active note (42_envelope.md R151). -/
abbrev noteState (e : EnvState) : Prop := e = .attack ∨ e = .sustain ∨ e = .release

/-- The states whose schedule has a deadline (10_state.md R67 (a)). -/
abbrev timedState (e : EnvState) : Prop :=
  e = .attack ∨ e = .release ∨ e = .waitStabilize ∨ e = .sampleFrequency

/-- The envelope invariants (10_state.md R67). -/
abbrev EnvelopeInv (c : Chan) : Prop :=
  (c.dlValid = true ↔ timedState c.envState) ∧
  (c.capie = true ↔ c.envState = .sampleFrequency) ∧
  (c.envState = .waitStabilize ∨ c.envState = .sampleFrequency → c.cfg.hasMeter = true) ∧
  (¬ noteState c.envState → c.envVel = 0 ∧ c.envHarm = 1)

/-- The period invariant (10_state.md R68), with the harmonic facts its reason names (R25: ENV_HARM is never 0; in a note
state `CFG_PERIOD div ENV_HARM` ≥ 1). -/
abbrev PeriodInv (c : Chan) : Prop :=
  1 ≤ c.cfgPeriod.toNat ∧ 1 ≤ c.tgtPeriod.toNat ∧ (c.frValid = true → 1 ≤ c.frPeriod.toNat) ∧
  1 ≤ c.envHarm.toNat ∧ (noteState c.envState → c.envHarm.toNat ≤ c.cfgPeriod.toNat)

/-- ENG_BEAT's bound (10_state.md R52): below BUF_LEN while the engine runs, BUF_LEN while it is paused. -/
abbrev BeatInv (bufLen : Nat) (c : Chan) : Prop :=
  (c.engRun = true → c.engBeat.toNat < bufLen) ∧ (c.engRun = false → c.engBeat.toNat = bufLen)

/-- Buffer memory is in canonical form and lists only samples of the two buffers (10_state.md R62). -/
abbrev MemInv (bufLen : Nat) (c : Chan) : Prop := c.mem.wf ∧ ∀ p ∈ c.mem, p.1 < 2 * bufLen

/-- The pipeline invariants as 10_state.md R66 writes them, (a) to (f). -/
abbrev PipelineClauses (c : Chan) : Prop :=
  c.curBuf = c.active ∧
  (c.desc0.buf = 0 ∧ c.desc1.buf = 1) ∧
  (c.frValid = true → c.nextValid = false) ∧
  (c.desc (otherSlot c.active)).valid = c.nextValid ∧
  (c.nextValid = false → c.engRun = true → c.engBuf = c.curBuf) ∧
  (c.engRun = false → c.tcf = false → c.engPtr = otherSlot c.active)

/-- What holds of the pipeline in every reachable state, MISSED or not: R66 (a) to (c), a running engine plays the buffer
of the valid descriptor it points at, and a waiting completion is of the other descriptor. -/
abbrev PipelineShape (c : Chan) : Prop :=
  c.curBuf = c.active ∧
  (c.desc0.buf = 0 ∧ c.desc1.buf = 1) ∧
  (c.frValid = true → c.nextValid = false) ∧
  (c.engRun = true → c.engBuf = c.engPtr ∧ (c.desc c.engPtr).valid = true) ∧
  (c.tcf = true → c.engPtr = otherSlot c.doneIdx)

/-- The pipeline while no completion is waiting: the engine is at the active descriptor and runs, or has moved on to the
other one, which invalidated the active one. -/
abbrev PipelineIdle (c : Chan) : Prop :=
  ((c.desc c.active).valid = true ↔ c.engPtr = c.active) ∧
  (c.engPtr = c.active → c.engRun = true) ∧
  (c.engPtr ≠ c.active → c.engRun = c.nextValid)

/-- The pipeline while a completion of DONE_IDX waits for its REQUEST. -/
abbrev PipelineDone (c : Chan) : Prop :=
  ((c.desc c.active).valid = true ↔ c.doneIdx = c.active) ∧
  (c.doneIdx = c.active → c.engRun = c.nextValid) ∧
  (c.doneIdx ≠ c.active → c.nextValid = true ∧ c.engRun = false)

/-- The inductive form of R66: what MISSED = 0 adds to the shape (DEDUCED from R111, R112, R121, R123; log 19). -/
abbrev PipelineInv (c : Chan) : Prop :=
  PipelineShape c ∧
  (c.chErr.missed = false →
    (c.desc (otherSlot c.active)).valid = c.nextValid ∧
    (c.tcf = false → PipelineIdle c) ∧ (c.tcf = true → PipelineDone c))

/-- Everything the spec says of every reachable state of one channel. -/
abbrev ChanInv (bufLen : Nat) (c : Chan) : Prop :=
  EnvelopeInv c ∧ PeriodInv c ∧ BeatInv bufLen c ∧ MemInv bufLen c ∧ PipelineInv c

/-- Everything the spec says of every reachable state. -/
abbrev State.Inv (s : State) : Prop := ∀ c ∈ s.chans, ChanInv s.block.bufLen c

/-- A command's frame: t differs from s only in channel n, RSP and (on an ILLEGAL response) GLB_ERR, and channel n's old
and new values are related by P (20_memory.md R84, 60_exceptions.md R213). -/
abbrev onlyChannel (n : Nat) (s t : State) (P : Chan → Chan → Prop) : Prop :=
  t.block = s.block ∧ t.now = s.now ∧ t.pending = s.pending ∧ t.chans.length = s.chans.length ∧
  (t.glbErr = s.glbErr ∨ t.glbErr = true ∧ t.rsp.sts = .illegal) ∧
  ∀ k c c', s.chans[k]? = some c → t.chans[k]? = some c' → if k = n then P c c' else c' = c

/-- The agent steps that exist (60_exceptions.md R211): commands, time and reset always; a beat on a channel of the
block; a capture on a metered channel of the block. -/
abbrev eventExists (s : State) : Event → Prop
  | .command _ => True
  | .beat ch => ch.toNat < s.chans.length
  | .capture ch _ _ => ∃ c, s.chans[ch.toNat]? = some c ∧ c.cfg.hasMeter = true
  | .time _ => True
  | .reset => True

end Sys2Proof.Machine
end

