-- ==== Sys2Proof/WellFormed.lean ====
section
/-! DEFINITION. The operand checks a decoded word still has to pass before its command's rule runs (30_encoding.md R96,
R97 steps 3 and 4): the channel exists, READ's register is assigned, RDBUF's index is inside a buffer. A command that
fails them executes as ILLEGAL. -/

namespace Sys2Proof

/-- R97 step 3: CH < N_CH. -/
abbrev Instr.ChannelExists (nCh : Nat) (i : Instr) : Prop := i.ch.toNat < nCh

/-- R97 step 4: REG is one of the assigned indices 0x00 to 0x26 (10_state.md R22), INDEX < BUF_LEN. -/
def Instr.operandOk (bufLen : Nat) : Instr → Bool
  | .read _ reg => decide (reg.toNat < 0x27)
  | .rdbuf _ _ index => decide (index.toNat < bufLen)
  | .on _ _ _ => true
  | .off _ _ => true
  | .update _ => true
  | .request _ => true
  | .fill _ => true
  | .submit _ _ => true
  | .set _ _ _ _ => true
  | .cal _ => true

/-- A well-formed command for a block of nCh channels with buffers of bufLen samples (R93). -/
abbrev Instr.WellFormed (nCh bufLen : Nat) (i : Instr) : Prop :=
  i.ChannelExists nCh ∧ i.operandOk bufLen = true

end Sys2Proof
end

