-- ==== Sys2Proof/Certificates/Slice0/Obligations.lean ====
section
/-! DEFINITION. The statements for the provers, from the numbered rules of spec/. OBLIGATIONS.json lists them. -/

open Sys2Proof Sys2Proof.Machine

/-! ## Encoding and decoding (30_encoding.md) -/

/-- Every command is what its word decodes to, with every operand at every value (R90, R91, R93). -/
def Obligations.DecodeOfEncode : Prop := ∀ i : Instr, decode (encode i) = .ok i

/-- Every word that decodes is the word of its command: no bit is read twice or ignored (R90, R91, R95). -/
def Obligations.DecodedWordIsItsEncoding : Prop := ∀ (w : CmdWord) (i : Instr), decode w = .ok i → encode i = w

/-- The example words of R99 decode to the commands it writes beside them. -/
def Obligations.ExampleWordsDecode : Prop :=
  decode 0x100000000001007F#64 = .ok (.on 0 127 1) ∧
  decode 0x102000000001007F#64 = .ok (.on 2 127 1) ∧
  decode 0x2000000000000000#64 = .ok (.off 0 0) ∧
  decode 0x3000000000000000#64 = .ok (.update 0) ∧
  decode 0x4000000000000000#64 = .ok (.request 0) ∧
  decode 0x5000000000000000#64 = .ok (.fill 0) ∧
  decode 0x6000000000000001#64 = .ok (.submit 0 1) ∧
  decode 0x7008006400000004#64 = .ok (.set 0 4 100 true) ∧
  decode 0x8000000000000000#64 = .ok (.cal 0) ∧
  decode 0x9000000000000005#64 = .ok (.read 0 5) ∧
  decode 0xA000000100000003#64 = .ok (.rdbuf 0 1 3)

/-- A word decodes to a command of mnemonic m exactly when it matches m's row of opcode_table.json. -/
def Obligations.DecoderAgreesWithOpcodeTable : Prop :=
  ∀ (w : CmdWord) (m : String),
    (∃ i : Instr, decode w = .ok i ∧ i.mnemonic = m) ↔
      ∃ r ∈ opcodeRows, r.mnemonic = m ∧ w &&& r.mask = r.pattern

/-- R94: a word with a reserved opcode sets GLB_ERR.ILLEGAL, answers ILLEGAL and changes nothing else. -/
def Obligations.ReservedOpcodeIsIllegal : Prop :=
  ∀ (w : CmdWord) (s : State), ((opField w).toNat = 0x0 ∨ 0xB ≤ (opField w).toNat) →
    runCommand w s = .next { s with glbErr := true, rsp := { sts := .illegal, isSome := false, val := 0 } }

/-- R95: a listed opcode with a reserved bit of its format set is ILLEGAL, whatever the channel and the state. -/
def Obligations.ReservedBitIsIllegal : Prop :=
  ∀ (w : CmdWord) (s : State) (op : BitVec 4) (reserved : CmdWord),
    (op, reserved) ∈
      [(0x1#4, 0x000FFFFF0000FF00#64), (0x2#4, 0x000FFFFFFFFFFF00#64), (0x3#4, 0x000FFFFFFFFFFFFF#64),
       (0x4#4, 0x000FFFFFFFFFFFFF#64), (0x5#4, 0x000FFFFFFFFFFFFF#64), (0x6#4, 0x000FFFFFFFFFFFFE#64),
       (0x7#4, 0x0007000000000000#64), (0x8#4, 0x000FFFFFFFFFFFFF#64), (0x9#4, 0x000FFFFFFFFFFF00#64),
       (0xA#4, 0x000FFFFE00000000#64)] →
    opField w = op → w &&& reserved ≠ 0 →
    runCommand w s = .next { s with glbErr := true, rsp := { sts := .illegal, isSome := false, val := 0 } }

/-- R96: a command of a channel that does not exist, READ of an unassigned register and RDBUF beyond the buffer are
ILLEGAL; so is every ill-formed command. -/
def Obligations.MissingChannelRegisterOrSampleIsIllegal : Prop :=
  ∀ (s : State),
    (∀ i : Instr, s.chans.length ≤ i.ch.toNat →
      exec i s = .next { s with glbErr := true, rsp := { sts := .illegal, isSome := false, val := 0 } }) ∧
    (∀ (ch : ChanIdx) (reg : BitVec 8), 0x27 ≤ reg.toNat →
      exec (.read ch reg) s = .next { s with glbErr := true, rsp := { sts := .illegal, isSome := false, val := 0 } }) ∧
    (∀ (ch : ChanIdx) (buf : Slot) (index : BitVec 32), s.block.bufLen ≤ index.toNat →
      exec (.rdbuf ch buf index) s =
        .next { s with glbErr := true, rsp := { sts := .illegal, isSome := false, val := 0 } }) ∧
    (∀ i : Instr, ¬ i.WellFormed s.chans.length s.block.bufLen →
      exec i s = .next { s with glbErr := true, rsp := { sts := .illegal, isSome := false, val := 0 } })

/-! ## The step -/

/-- When the next agent step is a command word that decodes to i, step is exec of i, with the word taken off the steps
to come (R103, R212). The agent step comes from State.pending (the model's choice, log 1). -/
def Obligations.StepRunsTheDecodedCommand : Prop :=
  ∀ (s : State) (w : CmdWord) (rest : List Event) (i : Instr),
    s.config.Valid → s.pending = .command w :: rest → decode w = .ok i →
    step s = exec i { s with pending := rest }

/-- The encoded word of any command, placed as the host's next word, is run as that command. The agent step comes from
State.pending (the model's choice, log 1). -/
def Obligations.PlacedWordRunsItsCommand : Prop :=
  ∀ (s : State) (i : Instr), s.config.Valid → step (s.withFetchWord 64 (encode i).toNat) = exec i s

/-- R234: no step is taken under a configuration that violates its premises. -/
def Obligations.StepRefusesIllFormedConfiguration : Prop :=
  ∀ (s : State),
    (s.chans = [] ∨ s.block.bufLen = 0 ∨
      ∃ c ∈ s.chans, c.cfg.nominalPeriod = 0 ∨ c.cfg.spacing = 0) →
    step s = .refused .badConfig

/-- The time base sets NOW (R214); a capture overwrites the meter's record and nothing else (R180). The agent step
comes from State.pending (the model's choice, log 1). -/
def Obligations.TimeAndCaptureSteps : Prop :=
  ∀ (s : State) (rest : List Event), s.config.Valid →
    (∀ t : Instant, s.pending = .time t :: rest → step s = .next { s with pending := rest, now := t }) ∧
    (∀ (ch : ChanIdx) (e : Bool) (m : Period) (c : Chan), s.pending = .capture ch e m :: rest →
      s.chans[ch.toNat]? = some c → c.cfg.hasMeter = true →
      step s = .next { s with
        pending := rest
        chans := s.chans.set ch.toNat { c with meter := { capf := true, merr := e, mval := m } } })

/-- R230, R231 with the reset column of R22: what RESET leaves, in every state and whatever the external state holds.
The agent step comes from State.pending (the model's choice, log 1). -/
def Obligations.ResetStepLeavesTheResetState : Prop :=
  ∀ (s : State) (rest : List Event), s.config.Valid → s.pending = .reset :: rest →
    step s = .next { s with
      pending := rest
      glbErr := false
      rsp := { sts := .ok, isSome := false, val := 0 }
      chans := s.chans.map fun c =>
        { cfg := c.cfg
          envState := .off, envVel := 0, envHarm := 1, dlValid := false, dl := 0
          cfgPeriod := c.cfg.nominalPeriod, capie := false
          tgtPeriod := c.cfg.nominalPeriod, tgtAmp := 0, tgtInv := false, phase := 0
          curBuf := 0, nextValid := true, active := 0
          desc0 := { valid := true, buf := 0 }, desc1 := { valid := true, buf := 1 }
          tcf := false, doneIdx := 0, engRun := true, engPtr := 0, engBuf := 0, engBeat := 0
          frValid := false, frPeriod := 0, frAmp := 0, frInv := false, frPhase := 0
          chErr := { protocol := false, precond := false, missed := false }
          mem := [], meter := c.meter, ampReg := c.ampReg, out := c.out } }

/-- The invariants hold, with no fault recorded, at the start of a run of every well-formed configuration, State.reset's
(the model's choice, log 4) among them; the meter's record, the amplitude register and NOW start at the model's choices
(logs 5, 6, 7), which no invariant reads. -/
def Obligations.InvariantsHoldAtReset : Prop :=
  State.reset.config.Valid ∧ State.reset.Inv ∧
  ∀ k : Config, k.Valid → (State.powerOn k).Inv ∧ (State.powerOn k).config = k ∧ (State.powerOn k).NoFault

/-! ## Envelope (42_envelope.md) -/

/-- R155: ON refuses a harmonic of 0 or above CFG_PERIOD in every state, ignores a note in Attack and Sustain, and
otherwise enters Attack with its deadline and its targets. -/
def Obligations.OnFollowsItsRule : Prop :=
  ∀ (s : State) (ch : ChanIdx) (vel : Velocity) (harm : Harmonic) (c : Chan), s.chans[ch.toNat]? = some c →
    encode (.on ch vel harm) = (0x1#4 ++ ch ++ (0#20 ++ harm ++ 0#8 ++ vel) : CmdWord) ∧
    (harm = 0 ∨ c.cfgPeriod.toNat / harm.toNat = 0 →
      exec (.on ch vel harm) s = .next (s.finish ch.toNat
        { c with chErr := { c.chErr with precond := true } } { sts := .precond, isSome := false, val := 0 })) ∧
    (harm ≠ 0 → c.cfgPeriod.toNat / harm.toNat ≠ 0 → (c.envState = .attack ∨ c.envState = .sustain) →
      exec (.on ch vel harm) s = .next { s with rsp := { sts := .ok, isSome := false, val := 0 } }) ∧
    (harm ≠ 0 → c.cfgPeriod.toNat / harm.toNat ≠ 0 →
      (c.envState = .off ∨ c.envState = .release ∨ c.envState = .waitStabilize ∨ c.envState = .sampleFrequency) →
      exec (.on ch vel harm) s = .next (s.finish ch.toNat
        { c with
          envState := .attack
          envVel := vel
          envHarm := harm
          dl := BitVec.ofNat 64 (s.now.toNat + c.cfg.attackTime.toNat)
          dlValid := true
          capie := if c.envState = .sampleFrequency then false else c.capie
          tgtPeriod := BitVec.ofNat 32 (c.cfgPeriod.toNat / harm.toNat)
          tgtAmp := applyVelocity c.cfg.attackAmp vel
          tgtInv := false }
        { sts := .ok, isSome := true, val := BitVec.ofNat 64 (s.now.toNat + c.cfg.attackTime.toNat) }))

/-- R156: OFF enters Release from Attack and Sustain with the velocity and harmonic held, whatever its own VEL, and is
ignored elsewhere. -/
def Obligations.OffFollowsItsRule : Prop :=
  ∀ (s : State) (ch : ChanIdx) (vel : Velocity) (c : Chan), s.chans[ch.toNat]? = some c →
    encode (.off ch vel) = (0x2#4 ++ ch ++ (0#44 ++ vel) : CmdWord) ∧
    (c.envState ≠ .attack → c.envState ≠ .sustain →
      exec (.off ch vel) s = .next { s with rsp := { sts := .ok, isSome := false, val := 0 } }) ∧
    ((c.envState = .attack ∨ c.envState = .sustain) → c.envHarm ≠ 0 →
      exec (.off ch vel) s = .next (s.finish ch.toNat
        { c with
          envState := .release
          dl := BitVec.ofNat 64 (s.now.toNat + c.cfg.releaseTime.toNat)
          dlValid := true
          tgtPeriod := BitVec.ofNat 32 (c.cfgPeriod.toNat / c.envHarm.toNat)
          tgtAmp := applyVelocity c.cfg.releaseAmp c.envVel
          tgtInv := true }
        { sts := .ok, isSome := true, val := BitVec.ofNat 64 (s.now.toNat + c.cfg.releaseTime.toNat) }))

/-- R157: UPDATE does nothing without a deadline or before it, and otherwise makes the one transition that is due; the
new deadline counts from the prior one. -/
def Obligations.UpdateFollowsItsRule : Prop :=
  ∀ (s : State) (ch : ChanIdx) (c : Chan), s.chans[ch.toNat]? = some c →
    encode (.update ch) = (0x3#4 ++ ch ++ 0#52 : CmdWord) ∧
    (c.dlValid = false ∨ s.now.toNat < c.dl.toNat ∨ c.envState = .off ∨ c.envState = .sustain →
      exec (.update ch) s = .next { s with rsp := { sts := .ok, isSome := false, val := 0 } }) ∧
    (c.dlValid = true → c.dl.toNat ≤ s.now.toNat →
      (c.envState = .attack → c.envHarm ≠ 0 →
        exec (.update ch) s = .next (s.finish ch.toNat
          { c with
            envState := .sustain
            dlValid := false
            tgtPeriod := BitVec.ofNat 32 (c.cfgPeriod.toNat / c.envHarm.toNat)
            tgtAmp := applyVelocity c.cfg.sustainAmp c.envVel
            tgtInv := false }
          { sts := .ok, isSome := false, val := 0 })) ∧
      (c.envState = .release → c.cfg.hasMeter = false →
        exec (.update ch) s = .next (s.finish ch.toNat
          { c with
            envState := .off
            envVel := 0
            envHarm := 1
            dlValid := false
            tgtPeriod := c.cfgPeriod
            tgtAmp := 0
            tgtInv := false }
          { sts := .ok, isSome := false, val := 0 })) ∧
      (c.envState = .release → c.cfg.hasMeter = true →
        exec (.update ch) s = .next (s.finish ch.toNat
          { c with
            envState := .waitStabilize
            envVel := 0
            envHarm := 1
            dl := BitVec.ofNat 64 (c.dl.toNat + c.cfg.stabilizeTime.toNat)
            tgtPeriod := c.cfgPeriod
            tgtAmp := 0
            tgtInv := false }
          { sts := .ok, isSome := true, val := BitVec.ofNat 64 (c.dl.toNat + c.cfg.stabilizeTime.toNat) })) ∧
      (c.envState = .waitStabilize →
        exec (.update ch) s = .next (s.finish ch.toNat
          { c with
            envState := .sampleFrequency
            dl := BitVec.ofNat 64 (c.dl.toNat + c.cfg.sampleTime.toNat)
            capie := true
            tgtPeriod := c.cfgPeriod
            tgtAmp := 0
            tgtInv := false }
          { sts := .ok, isSome := true, val := BitVec.ofNat 64 (c.dl.toNat + c.cfg.sampleTime.toNat) })) ∧
      (c.envState = .sampleFrequency →
        exec (.update ch) s = .next (s.finish ch.toNat
          { c with
            envState := .off
            dlValid := false
            capie := false
            tgtPeriod := c.cfgPeriod
            tgtAmp := 0
            tgtInv := false }
          { sts := .ok, isSome := false, val := 0 })))

/-- R152, R161: apply_velocity is the exact truncated product, never above a, a at 127 and beyond, 0 at 0, and monotone. -/
def Obligations.ApplyVelocityProperties : Prop :=
  ∀ (a : Sample) (v u : Velocity),
    (applyVelocity a v).toNat = a.toNat * min v.toNat 127 / 127 ∧
    (applyVelocity a v).toNat ≤ a.toNat ∧
    (127 ≤ v.toNat → applyVelocity a v = a) ∧
    applyVelocity a 0 = 0 ∧
    (u.toNat ≤ v.toNat → (applyVelocity a u).toNat ≤ (applyVelocity a v).toNat)

/-- What ON, OFF and UPDATE leave unchanged (R153 to R157): all of the channel but the envelope's registers, the three
targets and, for a refused ON, the PRECOND bit; all of memory; every other channel. -/
def Obligations.EnvelopeCommandsFrame : Prop :=
  ∀ (s t : State) (ch : ChanIdx),
    (∀ (vel : Velocity) (harm : Harmonic), exec (.on ch vel harm) s = .next t →
      onlyChannel ch.toNat s t fun c c' =>
        c' = { c with
          envState := c'.envState, envVel := c'.envVel, envHarm := c'.envHarm
          dlValid := c'.dlValid, dl := c'.dl, capie := c'.capie
          tgtPeriod := c'.tgtPeriod, tgtAmp := c'.tgtAmp, tgtInv := c'.tgtInv
          chErr := { c.chErr with precond := c'.chErr.precond } } ∧
        ∀ a, c'.mem.read a = c.mem.read a) ∧
    (∀ vel : Velocity, exec (.off ch vel) s = .next t →
      onlyChannel ch.toNat s t fun c c' =>
        c' = { c with
          envState := c'.envState, dlValid := c'.dlValid, dl := c'.dl
          tgtPeriod := c'.tgtPeriod, tgtAmp := c'.tgtAmp, tgtInv := c'.tgtInv } ∧
        ∀ a, c'.mem.read a = c.mem.read a) ∧
    (exec (.update ch) s = .next t →
      onlyChannel ch.toNat s t fun c c' =>
        c' = { c with
          envState := c'.envState, envVel := c'.envVel, envHarm := c'.envHarm
          dlValid := c'.dlValid, dl := c'.dl, capie := c'.capie
          tgtPeriod := c'.tgtPeriod, tgtAmp := c'.tgtAmp, tgtInv := c'.tgtInv } ∧
        ∀ a, c'.mem.read a = c.mem.read a)

/-! ## Pipeline (40_pipeline.md) -/

/-- R111: REQUEST does nothing without a completion; with one it clears TCF and invalidates the finished descriptor, and
hands out the vacated buffer with the targets of that moment when a replacement is queued. -/
def Obligations.RequestFollowsItsRule : Prop :=
  ∀ (s : State) (ch : ChanIdx) (c r : Chan), s.chans[ch.toNat]? = some c →
    r = { c with
      tcf := false
      desc0 := if c.doneIdx = 0 then { c.desc0 with valid := false } else c.desc0
      desc1 := if c.doneIdx = 1 then { c.desc1 with valid := false } else c.desc1 } →
    encode (.request ch) = (0x4#4 ++ ch ++ 0#52 : CmdWord) ∧
    (c.tcf = false → exec (.request ch) s = .next { s with rsp := { sts := .ok, isSome := false, val := 0 } }) ∧
    (c.tcf = true → c.nextValid = false →
      exec (.request ch) s = .next (s.finish ch.toNat r { sts := .ok, isSome := false, val := 0 })) ∧
    (c.tcf = true → c.nextValid = true →
      exec (.request ch) s = .next (s.finish ch.toNat
        { r with
          curBuf := 1 - c.curBuf
          active := 1 - c.active
          nextValid := false
          frValid := true
          frPeriod := c.tgtPeriod
          frAmp := c.tgtAmp
          frInv := c.tgtInv
          frPhase := c.phase }
        { sts := .ok, isSome := true, val := c.curBuf.zeroExtend 64 }))

/-- R112: SUBMIT refuses anything but the filled SW-held buffer; otherwise it queues it on the idle descriptor, advances
the phase modulo TGT_PERIOD, leaves a running engine alone and re-fetches for a paused one. -/
def Obligations.SubmitFollowsItsRule : Prop :=
  ∀ (s : State) (ch : ChanIdx) (buf : Slot) (c q : Chan), s.chans[ch.toNat]? = some c →
    q = { c with
      desc0 := if c.active = 1 then { valid := true, buf := buf } else c.desc0
      desc1 := if c.active = 0 then { valid := true, buf := buf } else c.desc1
      phase := BitVec.ofNat 32 ((c.phase.toNat + s.block.bufLen * c.cfg.spacing.toNat) % c.tgtPeriod.toNat)
      nextValid := true } →
    encode (.submit ch buf) = (0x6#4 ++ ch ++ (0#51 ++ buf) : CmdWord) ∧
    (c.nextValid = true ∨ c.frValid = true ∨ buf ≠ 1 - c.curBuf →
      exec (.submit ch buf) s = .next (s.finish ch.toNat
        { c with chErr := { c.chErr with protocol := true } } { sts := .protocol, isSome := false, val := 0 })) ∧
    (c.nextValid = false → c.frValid = false → buf = 1 - c.curBuf → c.tgtPeriod ≠ 0 →
      (c.engRun = true → exec (.submit ch buf) s =
        .next (s.finish ch.toNat q { sts := .ok, isSome := false, val := 0 })) ∧
      (c.engRun = false → (q.desc c.engPtr).valid = true → exec (.submit ch buf) s =
        .next (s.finish ch.toNat { q with engRun := true, engBuf := (q.desc c.engPtr).buf, engBeat := 0 }
          { sts := .ok, isSome := false, val := 0 })) ∧
      (c.engRun = false → (q.desc c.engPtr).valid = false → exec (.submit ch buf) s =
        .next (s.finish ch.toNat q { sts := .ok, isSome := false, val := 0 })))

/-- R113, R114: SET refuses a period of 0, and otherwise writes the three targets and nothing else. -/
def Obligations.SetFollowsItsRule : Prop :=
  ∀ (s : State) (ch : ChanIdx) (period : Period) (amp : Sample) (inv : Bool) (c : Chan),
    s.chans[ch.toNat]? = some c →
    encode (.set ch period amp inv) = (0x7#4 ++ ch ++ (BitVec.ofBool inv ++ 0#3 ++ amp ++ period) : CmdWord) ∧
    (period = 0 → exec (.set ch period amp inv) s = .next (s.finish ch.toNat
      { c with chErr := { c.chErr with precond := true } } { sts := .precond, isSome := false, val := 0 })) ∧
    (period ≠ 0 → exec (.set ch period amp inv) s = .next (s.finish ch.toNat
      { c with tgtPeriod := period, tgtAmp := amp, tgtInv := inv } { sts := .ok, isSome := false, val := 0 }))

/-- R122, R123: a beat of a running engine moves one sample to the output; the last one of a descriptor records MISSED
if TCF is still set, sets TCF and DONE_IDX, and runs the other descriptor or pauses. The agent step comes from
State.pending (the model's choice, log 1). -/
def Obligations.BeatMovesOneSample : Prop :=
  ∀ (s : State) (ch : ChanIdx) (rest : List Event) (c d : Chan) (v : Sample),
    s.config.Valid → s.pending = .beat ch :: rest → s.chans[ch.toNat]? = some c →
    c.engRun = true → c.engBeat.toNat < s.block.bufLen →
    v = c.mem.read (c.engBuf.toNat * s.block.bufLen + c.engBeat.toNat) →
    d = { c with
      ampReg := v
      out := c.out ++ [v]
      engBeat := BitVec.ofNat 32 (c.engBeat.toNat + 1)
      chErr := { c.chErr with missed := c.chErr.missed || c.tcf }
      tcf := true
      doneIdx := c.engPtr
      engPtr := 1 - c.engPtr } →
    (c.engBeat.toNat + 1 ≠ s.block.bufLen →
      step s = .next { s with
        pending := rest
        chans := s.chans.set ch.toNat
          { c with ampReg := v, out := c.out ++ [v], engBeat := BitVec.ofNat 32 (c.engBeat.toNat + 1) } }) ∧
    (c.engBeat.toNat + 1 = s.block.bufLen → (c.desc (1 - c.engPtr)).valid = true →
      step s = .next { s with
        pending := rest
        chans := s.chans.set ch.toNat
          { d with engRun := true, engBuf := (c.desc (1 - c.engPtr)).buf, engBeat := 0 } }) ∧
    (c.engBeat.toNat + 1 = s.block.bufLen → (c.desc (1 - c.engPtr)).valid = false →
      step s = .next { s with pending := rest, chans := s.chans.set ch.toNat { d with engRun := false } })

/-- R120, R124: a trigger event while the engine is paused changes nothing. The agent step comes from State.pending
(the model's choice, log 1). -/
def Obligations.PausedTriggerHasNoEffect : Prop :=
  ∀ (s : State) (ch : ChanIdx) (rest : List Event) (c : Chan),
    s.config.Valid → s.pending = .beat ch :: rest → s.chans[ch.toNat]? = some c → c.engRun = false →
    step s = .next { s with pending := rest }

/-- What REQUEST, SUBMIT and SET leave unchanged. -/
def Obligations.PipelineCommandsFrame : Prop :=
  ∀ (s t : State) (ch : ChanIdx),
    (exec (.request ch) s = .next t →
      onlyChannel ch.toNat s t fun c c' =>
        c' = { c with
          tcf := c'.tcf
          desc0 := { c.desc0 with valid := c'.desc0.valid }, desc1 := { c.desc1 with valid := c'.desc1.valid }
          curBuf := c'.curBuf, active := c'.active, nextValid := c'.nextValid
          frValid := c'.frValid, frPeriod := c'.frPeriod, frAmp := c'.frAmp, frInv := c'.frInv
          frPhase := c'.frPhase } ∧
        ∀ a, c'.mem.read a = c.mem.read a) ∧
    (∀ buf : Slot, exec (.submit ch buf) s = .next t →
      onlyChannel ch.toNat s t fun c c' =>
        c' = { c with
          desc0 := c'.desc0, desc1 := c'.desc1, phase := c'.phase, nextValid := c'.nextValid
          engRun := c'.engRun, engBuf := c'.engBuf, engBeat := c'.engBeat
          chErr := { c.chErr with protocol := c'.chErr.protocol } } ∧
        c'.desc c.active = c.desc c.active ∧
        ∀ a, c'.mem.read a = c.mem.read a) ∧
    (∀ (period : Period) (amp : Sample) (inv : Bool), exec (.set ch period amp inv) s = .next t →
      onlyChannel ch.toNat s t fun c c' =>
        c' = { c with
          tgtPeriod := c'.tgtPeriod, tgtAmp := c'.tgtAmp, tgtInv := c'.tgtInv
          chErr := { c.chErr with precond := c'.chErr.precond } } ∧
        ∀ a, c'.mem.read a = c.mem.read a)

/-- R42, R69: right after a SUBMIT that is accepted the phase is below the target period. -/
def Obligations.PhaseBelowTargetAfterSubmit : Prop :=
  ∀ (s t : State) (ch : ChanIdx) (buf : Slot) (c' : Chan),
    exec (.submit ch buf) s = .next t → t.rsp.sts = .ok → t.chans[ch.toNat]? = some c' →
    c'.phase.toNat < c'.tgtPeriod.toNat

/-- n phase advances by one buffer, from phase 0 and modulo a constant period, give n × BUF_LEN × SPACING modulo that
period: the arithmetic of R128. -/
def Obligations.PhaseAdvancesAddUpModuloThePeriod : Prop :=
  ∀ (bufLen n : Nat) (spacing period : Period), period ≠ 0 →
    ((fun x => advancePhase bufLen spacing x period)^[n] 0).toNat =
      (n * bufLen * spacing.toNat) % period.toNat

/-- R128 along a run: while a channel's target period stays p and no RESET comes, its phase is the number of buffers
submitted since the start × BUF_LEN × SPACING modulo p, whatever else the agents do. A buffer is submitted where NEXT_VALID
rises. -/
def Obligations.PhaseFollowsTheSubmitsOfARun : Prop :=
  ∀ (len : Option Nat) (s : Nat → State) (e : Nat → Event) (n m : Nat) (c : Nat → Chan) (p : Period),
    IsRun len s e → hasState len m →
    (∀ i, i ≤ m → (s i).chans[n]? = some (c i) ∧ (c i).tgtPeriod = p) → (∀ i, i < m → e i ≠ .reset) →
    (c m).phase.toNat =
      (((List.range m).filter fun i => !(c i).nextValid && (c (i + 1)).nextValid).length *
        (s 0).block.bufLen * (c 0).cfg.spacing.toNat) % p.toNat

/-- R66 (f), R112 corner case (d): while MISSED is not recorded, a SUBMIT accepted while the engine is paused runs the
buffer just submitted, from its first sample. -/
def Obligations.SubmitResumesWithTheSubmittedBuffer : Prop :=
  ∀ (s t : State) (ch : ChanIdx) (buf : Slot) (c c' : Chan),
    s.chans[ch.toNat]? = some c → PipelineInv c → c.chErr.missed = false → c.engRun = false →
    exec (.submit ch buf) s = .next t → t.rsp.sts = .ok → t.chans[ch.toNat]? = some c' →
    c'.engRun = true ∧ c'.engBuf = buf ∧ c'.engBeat = 0 ∧ c'.engPtr = 1 - c'.active ∧ swHeld c' = none ∧
    queued c' = some buf

/-- R126: while MISSED is not recorded, REQUEST hands out a buffer that was not queued, is SW-held afterwards, and is not
the one a running engine transfers from. -/
def Obligations.RequestNeverHandsOutAPlayingBuffer : Prop :=
  ∀ (s t : State) (ch : ChanIdx) (c c' : Chan),
    s.chans[ch.toNat]? = some c → PipelineInv c → c.chErr.missed = false →
    exec (.request ch) s = .next t → t.rsp.isSome = true → t.chans[ch.toNat]? = some c' →
    ∃ b : Slot, t.rsp.val = b.zeroExtend 64 ∧ queued c ≠ some b ∧ swHeld c' = some b ∧
      (c'.engRun = true → c'.engBuf ≠ b)

/-- The inductive pipeline invariant gives R66 (a) to (f) wherever MISSED is not recorded. -/
def Obligations.PipelineInvGivesItsClauses : Prop :=
  ∀ c : Chan, PipelineInv c → c.chErr.missed = false → PipelineClauses c

/-! ## Synthesis (41_synthesis.md) -/

/-- R141 with R140: FILL refuses without a request; with one it leaves every sample of the SW-held buffer at the square
wave of the request, every other sample as it was, and consumes the request. -/
def Obligations.FillFollowsItsRule : Prop :=
  ∀ (s : State) (ch : ChanIdx) (c : Chan), s.chans[ch.toNat]? = some c →
    encode (.fill ch) = (0x5#4 ++ ch ++ 0#52 : CmdWord) ∧
    (c.frValid = false → exec (.fill ch) s = .next (s.finish ch.toNat
      { c with chErr := { c.chErr with protocol := true } } { sts := .protocol, isSome := false, val := 0 })) ∧
    (c.frValid = true → c.frPeriod ≠ 0 → c.mem.wf →
      ∃ m : Memory,
        exec (.fill ch) s = .next (s.finish ch.toNat { c with mem := m, frValid := false }
          { sts := .ok, isSome := true, val := (1 - c.curBuf).zeroExtend 64 }) ∧
        m.wf ∧
        (∀ i, i < s.block.bufLen → m.read ((1 - c.curBuf).toNat * s.block.bufLen + i) =
          if ¬ (c.frPeriod.toNat < 2 * ((c.frPhase.toNat + i * c.cfg.spacing.toNat) % c.frPeriod.toNat) ↔
              c.frInv = true)
          then c.frAmp else 0) ∧
        (∀ a, ¬ ((1 - c.curBuf).toNat * s.block.bufLen ≤ a ∧
            a < (1 - c.curBuf).toNat * s.block.bufLen + s.block.bufLen) → m.read a = c.mem.read a))

/-- What FILL leaves unchanged: all of the channel but its memory, FR_VALID and the PROTOCOL bit, and of memory every
sample outside the SW-held buffer. -/
def Obligations.FillFrame : Prop :=
  ∀ (s t : State) (ch : ChanIdx), exec (.fill ch) s = .next t →
    onlyChannel ch.toNat s t fun c c' =>
      c' = { c with
        mem := c'.mem, frValid := c'.frValid, chErr := { c.chErr with protocol := c'.chErr.protocol } } ∧
      (c.mem.wf → ∀ a, ¬ (sampleAddr s.block.bufLen (otherSlot c.curBuf) 0 ≤ a ∧
        a < sampleAddr s.block.bufLen (otherSlot c.curBuf) s.block.bufLen) → c'.mem.read a = c.mem.read a)

/-- R143: a buffer synthesized from the advanced phase continues the one before it. -/
def Obligations.SynthesisContinuesAcrossBuffers : Prop :=
  ∀ (bufLen i : Nat) (p f sp : Period) (a : Sample) (inv : Bool), p ≠ 0 →
    synthSample p a inv (advancePhase bufLen sp f p) sp i = synthSample p a inv f sp (bufLen + i)

/-- R142: over one period at spacing 1 and phase 0, with an amplitude other than 0, the high positions number
(P - 1) div 2 and, inverted, P div 2 + 1. -/
def Obligations.SynthesisDutyOverOnePeriod : Prop :=
  ∀ (p : Period) (a : Sample), p ≠ 0 → a ≠ 0 →
    ((List.range p.toNat).filter fun i => synthSample p a false 0 1 i = a).length = (p.toNat - 1) / 2 ∧
    ((List.range p.toNat).filter fun i => synthSample p a true 0 1 i = a).length = p.toNat / 2 + 1

/-! ## Calibration (43_calibration.md) -/

/-- R184: CAL does nothing unless armed; armed, it acknowledges the capture, drops an error or an outlier, and otherwise
blends the sample into CFG_PERIOD. -/
def Obligations.CalFollowsItsRule : Prop :=
  ∀ (s : State) (ch : ChanIdx) (c a : Chan), s.chans[ch.toNat]? = some c →
    a = { c with meter := { c.meter with capf := false, merr := false } } →
    encode (.cal ch) = (0x8#4 ++ ch ++ 0#52 : CmdWord) ∧
    (c.cfg.hasMeter = false ∨ c.envState ≠ .sampleFrequency →
      exec (.cal ch) s = .next { s with rsp := { sts := .ok, isSome := false, val := 0 } }) ∧
    (c.cfg.hasMeter = true → c.envState = .sampleFrequency →
      (c.meter.capf = false ∨ c.meter.merr = true →
        exec (.cal ch) s = .next (s.finish ch.toNat a { sts := .ok, isSome := false, val := 1 })) ∧
      (c.meter.capf = true → c.meter.merr = false →
        (10 * ((c.meter.mval.toNat : Int) - c.cfgPeriod.toNat).natAbs > c.cfgPeriod.toNat →
          exec (.cal ch) s = .next (s.finish ch.toNat a { sts := .ok, isSome := false, val := 2 })) ∧
        (10 * ((c.meter.mval.toNat : Int) - c.cfgPeriod.toNat).natAbs ≤ c.cfgPeriod.toNat →
          exec (.cal ch) s = .next (s.finish ch.toNat
            { a with cfgPeriod := BitVec.ofNat 32 ((9 * c.cfgPeriod.toNat + c.meter.mval.toNat + 5) / 10) }
            { sts := .ok, isSome := true
              val := BitVec.ofNat 64 ((9 * c.cfgPeriod.toNat + c.meter.mval.toNat + 5) / 10) }))))

/-- What CAL leaves unchanged: all of the channel but CFG_PERIOD and the meter's two flags. -/
def Obligations.CalFrame : Prop :=
  ∀ (s t : State) (ch : ChanIdx), exec (.cal ch) s = .next t →
    onlyChannel ch.toNat s t fun c c' =>
      c' = { c with
        cfgPeriod := c'.cfgPeriod
        meter := { c.meter with capf := c'.meter.capf, merr := c'.meter.merr } } ∧
      ∀ a, c'.mem.read a = c.mem.read a

/-- R182: the exact 10% test equals the truncating form. -/
def Obligations.OutlierTestIsTheTruncatingTest : Prop :=
  ∀ p m : Period,
    (isOutlier p m = true ↔ 10 * ((m.toNat : Int) - p.toNat).natAbs > p.toNat) ∧
    (isOutlier p m = false ↔ ((m.toNat : Int) - p.toNat).natAbs ≤ p.toNat / 10)

/-- R183: the blend is the exact round-half-up value, fits its register, and stays at least 1 for an accepted sample. -/
def Obligations.BlendIsExactAndFits : Prop :=
  ∀ p m : Period,
    (blend p m).toNat = (9 * p.toNat + m.toNat + 5) / 10 ∧
    (blend p m).toNat ≤ max p.toNat m.toNat ∧
    (isOutlier p m = false → 1 ≤ p.toNat → 1 ≤ (blend p m).toNat)

/-- R185: P is a fixed point of Blend(·, S) exactly in [S - 4, S + 5]; outside that band the blend moves strictly toward S
and not past it. -/
def Obligations.BlendConverges : Prop :=
  ∀ p m : Period,
    (blend p m = p ↔ m.toNat ≤ p.toNat + 4 ∧ p.toNat ≤ m.toNat + 5) ∧
    (p.toNat + 4 < m.toNat → p.toNat < (blend p m).toNat ∧ (blend p m).toNat ≤ m.toNat) ∧
    (m.toNat + 5 < p.toNat → (blend p m).toNat < p.toNat ∧ m.toNat ≤ (blend p m).toNat)

/-! ## Access (44_access.md) -/

/-- R190 with the map of R22: READ of an unassigned register is ILLEGAL; of each other register it returns the value,
zero-extended, and changes nothing but the response. -/
def Obligations.ReadReturnsTheRegister : Prop :=
  ∀ (s : State) (ch : ChanIdx) (c : Chan) (reg : BitVec 8), s.chans[ch.toNat]? = some c →
    encode (.read ch reg) = (0x9#4 ++ ch ++ (0#44 ++ reg) : CmdWord) ∧
    (0x27 ≤ reg.toNat → exec (.read ch reg) s = .next { s with
      glbErr := true, rsp := { sts := .illegal, isSome := false, val := 0 } }) ∧
    ∀ v : Nat, (reg.toNat, v) ∈
      [(0x00, match c.envState with
          | .off => 0 | .attack => 1 | .sustain => 2 | .release => 3 | .waitStabilize => 4 | .sampleFrequency => 5),
       (0x01, c.envVel.toNat), (0x02, c.envHarm.toNat), (0x03, c.dlValid.toNat), (0x04, c.dl.toNat),
       (0x05, c.cfgPeriod.toNat), (0x06, c.cfg.attackTime.toNat), (0x07, c.cfg.attackAmp.toNat),
       (0x08, c.cfg.sustainAmp.toNat), (0x09, c.cfg.releaseTime.toNat), (0x0A, c.cfg.releaseAmp.toNat),
       (0x0B, c.cfg.stabilizeTime.toNat), (0x0C, c.cfg.sampleTime.toNat), (0x0D, c.cfg.hasMeter.toNat),
       (0x0E, c.cfg.maxAmp.toNat), (0x0F, c.cfg.spacing.toNat), (0x10, c.tgtPeriod.toNat), (0x11, c.tgtAmp.toNat),
       (0x12, c.tgtInv.toNat), (0x13, c.phase.toNat), (0x14, c.curBuf.toNat), (0x15, c.nextValid.toNat),
       (0x16, c.active.toNat), (0x17, 2 * c.desc0.buf.toNat + c.desc0.valid.toNat),
       (0x18, 2 * c.desc1.buf.toNat + c.desc1.valid.toNat), (0x19, c.tcf.toNat), (0x1A, c.doneIdx.toNat),
       (0x1B, c.engRun.toNat), (0x1C, c.engPtr.toNat), (0x1D, c.engBuf.toNat), (0x1E, c.engBeat.toNat),
       (0x1F, c.frValid.toNat), (0x20, c.frPeriod.toNat), (0x21, c.frAmp.toNat), (0x22, c.frInv.toNat),
       (0x23, c.frPhase.toNat), (0x24, c.capie.toNat),
       (0x25, 4 * c.chErr.missed.toNat + 2 * c.chErr.precond.toNat + c.chErr.protocol.toNat),
       (0x26, s.glbErr.toNat)] →
      exec (.read ch reg) s = .next { s with rsp := { sts := .ok, isSome := true, val := BitVec.ofNat 64 v } }

/-- R191: RDBUF returns the sample of either buffer, whoever owns it, and changes nothing but the response; an index at
or beyond BUF_LEN is ILLEGAL. -/
def Obligations.RdbufReturnsTheSample : Prop :=
  ∀ (s : State) (ch : ChanIdx) (c : Chan) (buf : Slot) (index : BitVec 32), s.chans[ch.toNat]? = some c →
    encode (.rdbuf ch buf index) = (0xA#4 ++ ch ++ (0#19 ++ buf ++ index) : CmdWord) ∧
    (index.toNat < s.block.bufLen → exec (.rdbuf ch buf index) s = .next { s with
      rsp := { sts := .ok, isSome := true
               val := (c.mem.read (buf.toNat * s.block.bufLen + index.toNat)).zeroExtend 64 } }) ∧
    (s.block.bufLen ≤ index.toNat → exec (.rdbuf ch buf index) s = .next { s with
      glbErr := true, rsp := { sts := .illegal, isSome := false, val := 0 } })

/-- What READ and RDBUF leave unchanged: every channel whole. -/
def Obligations.AccessCommandsFrame : Prop :=
  ∀ (s t : State) (ch : ChanIdx),
    (∀ reg : BitVec 8, exec (.read ch reg) s = .next t →
      onlyChannel ch.toNat s t fun c c' => c' = c ∧ ∀ a, c'.mem.read a = c.mem.read a) ∧
    (∀ (buf : Slot) (index : BitVec 32), exec (.rdbuf ch buf index) s = .next t →
      onlyChannel ch.toNat s t fun c c' => c' = c ∧ ∀ a, c'.mem.read a = c.mem.read a)

/-! ## Faults and interrupts (60_exceptions.md) -/

/-- R201, R208: a refused command answers SOME 0 and VAL 0 and changes nothing but the response and its one sticky bit. -/
def Obligations.RefusedCommandChangesOnlyItsBit : Prop :=
  ∀ (i : Instr) (s t : State), exec i s = .next t →
    (t.rsp.sts = .illegal →
      t = { s with glbErr := true, rsp := { sts := .illegal, isSome := false, val := 0 } }) ∧
    (t.rsp.sts = .protocol → ∃ c, s.chans[i.ch.toNat]? = some c ∧
      t = s.finish i.ch.toNat { c with chErr := { c.chErr with protocol := true } }
        { sts := .protocol, isSome := false, val := 0 }) ∧
    (t.rsp.sts = .precond → ∃ c, s.chans[i.ch.toNat]? = some c ∧
      t = s.finish i.ch.toNat { c with chErr := { c.chErr with precond := true } }
        { sts := .precond, isSome := false, val := 0 })

/-- R209, R59, R60: only RESET clears a fault bit. The agent step comes from State.pending (the model's choice, log
1). The agent step comes from State.pending (the model's choice, log 1). -/
def Obligations.FaultBitsAreSticky : Prop :=
  ∀ (s t : State), step s = .next t → s.pending.head? ≠ some .reset →
    (s.glbErr = true → t.glbErr = true) ∧
    ∀ (n : Nat) (c c' : Chan), s.chans[n]? = some c → t.chans[n]? = some c' →
      (c.chErr.protocol = true → c'.chErr.protocol = true) ∧
      (c.chErr.precond = true → c'.chErr.precond = true) ∧
      (c.chErr.missed = true → c'.chErr.missed = true)

/-- R204: TC_IRQ is TCF; it rises only at the beat that completes a descriptor, and falls only at a REQUEST of its
channel or at RESET. The agent step comes from State.pending (the model's choice, log 1). -/
def Obligations.TcIrqRisesAtCompletionAndFallsAtRequestOrReset : Prop :=
  ∀ (s t : State) (n : Nat) (c c' : Chan), step s = .next t → s.chans[n]? = some c → t.chans[n]? = some c' →
    tcIrq c = c.tcf ∧
    (tcIrq c = false → tcIrq c' = true →
      ∃ ch, s.pending.head? = some (.beat ch) ∧ ch.toNat = n ∧ c.engRun = true ∧
        c.engBeat.toNat + 1 = s.block.bufLen) ∧
    (tcIrq c = true → tcIrq c' = false →
      s.pending.head? = some .reset ∨
        ∃ w ch, s.pending.head? = some (.command w) ∧ decode w = .ok (.request ch) ∧ ch.toNat = n)

/-- R205: under the envelope invariant CAP_IRQ is up exactly while a capture is pending in SampleFrequency, and a CAL of
the channel lowers it. -/
def Obligations.CapIrqIsPendingCaptureInSampleFrequency : Prop :=
  ∀ (s t : State) (ch : ChanIdx) (c c' : Chan), s.chans[ch.toNat]? = some c → EnvelopeInv c →
    (capIrq c = true ↔ c.meter.capf = true ∧ c.envState = .sampleFrequency) ∧
    (exec (.cal ch) s = .next t → t.chans[ch.toNat]? = some c' → capIrq c' = false)

/-- Where the model stops: a rule's div or mod by 0, and a beat outside the buffer (the model's choice, logs 11 and
12: 00_scope.md R12 defines neither; 10_state.md R25, R52 and R68 make them unreachable). The agent step comes from
State.pending (the model's choice, log 1). -/
def Obligations.UnreachableDivisorsAndBeatsStop : Prop :=
  ∀ (s : State) (ch : ChanIdx) (c : Chan), s.chans[ch.toNat]? = some c →
    (∀ vel : Velocity, (c.envState = .attack ∨ c.envState = .sustain) → c.envHarm = 0 →
      exec (.off ch vel) s = .fault .zeroDivisor) ∧
    (c.dlValid = true → c.dl.toNat ≤ s.now.toNat → c.envState = .attack → c.envHarm = 0 →
      exec (.update ch) s = .fault .zeroDivisor) ∧
    (∀ buf : Slot, c.nextValid = false → c.frValid = false → buf = 1 - c.curBuf → c.tgtPeriod = 0 →
      exec (.submit ch buf) s = .fault .zeroDivisor) ∧
    (c.frValid = true → c.frPeriod = 0 → exec (.fill ch) s = .fault .zeroDivisor) ∧
    (∀ rest : List Event, s.config.Valid → s.pending = .beat ch :: rest → c.engRun = true →
      s.block.bufLen ≤ c.engBeat.toNat → step s = .fault .noSuchSample)

/-! ## The whole machine -/

/-- R84, R213: a command reads only its own channel (and N_CH, BUF_LEN, NOW and GLB_ERR): two states that agree there
give the same new channel and the same response, whatever the other channels hold. -/
def Obligations.CommandReadsOnlyItsChannel : Prop :=
  ∀ (i : Instr) (s u t : State),
    s.chans[i.ch.toNat]? = u.chans[i.ch.toNat]? → s.block = u.block → s.now = u.now → s.glbErr = u.glbErr →
    exec i s = .next t →
    ∃ v, exec i u = .next v ∧ v.chans[i.ch.toNat]? = t.chans[i.ch.toNat]? ∧ v.rsp = t.rsp ∧ v.glbErr = t.glbErr

/-- R222, R251: in every state that meets the invariants, every agent step that exists completes. The agent step comes
from State.pending (the model's choice, log 1); with none to come the step answers the same state (the model's choice,
log 2). -/
def Obligations.StepCompletesUnderTheInvariants : Prop :=
  ∀ (s : State), s.config.Valid → s.Inv → (∀ e, s.pending.head? = some e → eventExists s e) →
    ∃ t, step s = .next t

/-- R212, R66 to R68, R52: every state of every run meets the invariants, and any enabled agent step may be its next; so
every sequence of command words, without end, is the host's part of an infinite run from every start. -/
def Obligations.RunsMeetTheInvariantsAndGoOn : Prop :=
  (∀ (len : Option Nat) (s : Nat → State) (e : Nat → Event) (n : Nat), IsRun len s e → hasState len n →
    (s n).config.Valid ∧ (s n).Inv ∧ ∀ x, enabled (s n) x → ∃ t, agentStep x (s n) = .next t) ∧
  ∀ (s₀ : State) (w : Nat → CmdWord), IsStart s₀ → ∃ s, s 0 = s₀ ∧ IsRun none s fun n => .command (w n)

/-- R212: every cut of a run, finite or infinite, is where the machine's own iterated step stands once the agent steps
before the cut are its list (log 1). -/
def Obligations.EveryCutOfARunIsIteratedStep : Prop :=
  ∀ (len : Option Nat) (s : Nat → State) (e : Nat → Event) (n : Nat), IsRun len s e → hasState len n →
    core.run n { s 0 with pending := (List.range n).map e } = .next (s n)

/-- R67: every step keeps the envelope invariants. The agent step comes from State.pending (the model's choice, log
1). The agent step comes from State.pending (the model's choice, log 1). -/
def Obligations.StepKeepsEnvelopeInv : Prop :=
  ∀ (s t : State), (∀ c ∈ s.chans, EnvelopeInv c) → step s = .next t → ∀ c ∈ t.chans, EnvelopeInv c

/-- R68: every step keeps every period at least 1. The agent step comes from State.pending (the model's choice, log
1). The agent step comes from State.pending (the model's choice, log 1). -/
def Obligations.StepKeepsPeriodInv : Prop :=
  ∀ (s t : State), (∀ c ∈ s.chans, PeriodInv c) → step s = .next t → ∀ c ∈ t.chans, PeriodInv c

/-- R52: every step keeps ENG_BEAT below BUF_LEN while the engine runs and at BUF_LEN while it is paused. The agent
step comes from State.pending (the model's choice, log 1). -/
def Obligations.StepKeepsBeatInv : Prop :=
  ∀ (s t : State), (∀ c ∈ s.chans, BeatInv s.block.bufLen c) → step s = .next t →
    ∀ c ∈ t.chans, BeatInv t.block.bufLen c

/-- R62, R71: every step keeps buffer memory in canonical form and inside the two buffers. The agent step comes from
State.pending (the model's choice, log 1). -/
def Obligations.StepKeepsMemInv : Prop :=
  ∀ (s t : State), (∀ c ∈ s.chans, MemInv s.block.bufLen c) → step s = .next t →
    ∀ c ∈ t.chans, MemInv t.block.bufLen c

/-- R66: every step keeps the pipeline invariants. The agent step comes from State.pending (the model's choice, log
1). The agent step comes from State.pending (the model's choice, log 1). -/
def Obligations.StepKeepsPipelineInv : Prop :=
  ∀ (s t : State), (∀ c ∈ s.chans, PipelineInv c) → step s = .next t → ∀ c ∈ t.chans, PipelineInv c

/-- R21: no step changes the configuration. The agent step comes from State.pending (the model's choice, log 1). -/
def Obligations.StepKeepsConfiguration : Prop :=
  ∀ (s t : State), step s = .next t → t.config = s.config

/-- R64, R74: the output history grows by one sample, the one the amplitude register takes, at a beat of a running
engine, and neither changes otherwise. The agent step comes from State.pending (the model's choice, log 1). -/
def Obligations.OutputGrowsOnlyByBeats : Prop :=
  ∀ (s t : State) (n : Nat) (c c' : Chan), step s = .next t → s.chans[n]? = some c → t.chans[n]? = some c' →
    (c'.out = c.out ∧ c'.ampReg = c.ampReg) ∨
      ∃ ch, s.pending.head? = some (.beat ch) ∧ ch.toNat = n ∧ c.engRun = true ∧
        c'.ampReg = c.mem.read (sampleAddr s.block.bufLen c.engBuf c.engBeat.toNat) ∧
        c'.out = c.out ++ [c'.ampReg]

/-- R28: only an accepted CAL in SampleFrequency, or RESET, changes CFG_PERIOD. The agent step comes from
State.pending (the model's choice, log 1). -/
def Obligations.CfgPeriodChangesOnlyByCal : Prop :=
  ∀ (s t : State) (n : Nat) (c c' : Chan), step s = .next t → s.chans[n]? = some c → t.chans[n]? = some c' →
    c'.cfgPeriod ≠ c.cfgPeriod →
    s.pending.head? = some .reset ∨
      ∃ w ch, s.pending.head? = some (.command w) ∧ decode w = .ok (.cal ch) ∧ ch.toNat = n ∧
        c.envState = .sampleFrequency ∧ c.cfg.hasMeter = true ∧ isOutlier c.cfgPeriod c.meter.mval = false

/-- R71: only a FILL of its channel, or RESET, changes buffer memory. The agent step comes from State.pending (the
model's choice, log 1). -/
def Obligations.BufferMemoryChangesOnlyByFill : Prop :=
  ∀ (s t : State) (n : Nat) (c c' : Chan), step s = .next t → s.chans[n]? = some c → t.chans[n]? = some c' →
    c'.mem ≠ c.mem →
    s.pending.head? = some .reset ∨
      ∃ w ch, s.pending.head? = some (.command w) ∧ decode w = .ok (.fill ch) ∧ ch.toNat = n ∧ c.frValid = true
end

