-- ==== Sys2Proof/Laws/Memory.lean ====
section
/-! SUPPORT. Buffer memory: a read after a write, and every operation keeps the canonical form. -/

namespace Sys2Proof.Machine

/-- An address below every listed one reads as 0. -/
theorem Memory.read_of_lt (m : Memory) (a : Nat) (h : ∀ p ∈ m, a < p.1) : m.read a = 0 := by
  induction m with
  | nil => rfl
  | cons p m ih =>
    obtain ⟨k, v⟩ := p
    have hk : a < k := h (k, v) (by simp)
    rw [Memory.read, if_neg (by omega)]
    exact ih fun q hq => h q (List.mem_cons_of_mem _ hq)

/-- The cell of a value at the head of a memory that lists nothing at or below its address. -/
theorem Memory.read_head (m : Memory) (a b : Nat) (v : Sample) (h : Memory.read m a = 0) :
    Memory.read (if v = 0 then m else (a, v) :: m) b = if b = a then v else Memory.read m b := by
  by_cases hv : v = 0
  · rw [if_pos hv]
    split
    next hb => rw [hb, h, hv]
    next => rfl
  · rw [if_neg hv, Memory.read]
    by_cases hb : b = a
    · rw [if_pos hb, if_pos hb.symm]
    · rw [if_neg hb, if_neg (Ne.symm hb)]

/-- A read after a write: the value written at its address, the old value everywhere else. -/
theorem Memory.read_write (m : Memory) (hm : m.wf) (a b : Nat) (v : Sample) :
    (m.write a v).read b = if b = a then v else m.read b := by
  induction m with
  | nil => exact Memory.read_head [] a b v rfl
  | cons p m ih =>
    obtain ⟨k, w⟩ := p
    obtain ⟨hs, hz⟩ := hm
    have ih := ih ⟨hs.of_cons, fun q hq => hz q (List.mem_cons_of_mem _ hq)⟩
    have above : ∀ q ∈ m, k < q.1 := fun q hq => List.rel_of_pairwise_cons hs hq
    have zero_at : ∀ x, x ≤ k → Memory.read m x = 0 := fun x hx =>
      Memory.read_of_lt m x fun q hq => by have := above q hq; omega
    rw [Memory.write]
    split
    next hak =>
      refine Memory.read_head ((k, w) :: m) a b v ?_
      rw [Memory.read, if_neg (by omega)]
      exact zero_at a (by omega)
    next hak =>
      split
      next hk =>
        subst hk
        rw [Memory.read_head m a b v (zero_at a (by omega)), Memory.read]
        by_cases hb : b = a
        · rw [if_pos hb, if_pos hb]
        · rw [if_neg hb, if_neg hb, if_neg (Ne.symm hb)]
      next hk =>
        rw [Memory.read, Memory.read, ih]
        by_cases hb : k = b
        · rw [if_pos hb, if_pos hb, if_neg (by omega)]
        · rw [if_neg hb, if_neg hb]

/-- The addresses a write can list are the old ones and the one written. -/
theorem Memory.mem_write (m : Memory) (a : Nat) (v : Sample) (p : Cell) (h : p ∈ m.write a v) :
    p ∈ m ∨ (p = (a, v) ∧ v ≠ 0) := by
  induction m with
  | nil => by_cases hv : v = 0 <;> simp_all [Memory.write]
  | cons q m ih =>
    obtain ⟨k, w⟩ := q
    simp only [Memory.write] at h
    split at h
    · by_cases hv : v = 0 <;> simp_all
      tauto
    · split at h
      · by_cases hv : v = 0 <;> simp_all
        tauto
      · simp only [List.mem_cons] at h ⊢
        rcases h with h | h
        · exact Or.inl (Or.inl h)
        · rcases ih h with h | h
          · exact Or.inl (Or.inr h)
          · exact Or.inr h

/-- A write keeps the canonical form. -/
theorem Memory.write_wf (m : Memory) (hm : m.wf) (a : Nat) (v : Sample) : (m.write a v).wf := by
  refine ⟨?_, fun p hp => ?_⟩
  · induction m with
    | nil => rw [Memory.write]; split <;> simp
    | cons q m ih =>
      obtain ⟨k, w⟩ := q
      obtain ⟨hs, hz⟩ := hm
      have above : ∀ q ∈ m, k < q.1 := fun q hq => List.rel_of_pairwise_cons hs hq
      have tail := ih ⟨hs.of_cons, fun q hq => hz q (List.mem_cons_of_mem _ hq)⟩
      simp only [Memory.write]
      split
      next hak =>
        by_cases hv : v = 0
        · simpa [hv] using hs
        · rw [if_neg hv]
          refine List.pairwise_cons.2 ⟨fun q hq => ?_, hs⟩
          rcases List.mem_cons.1 hq with rfl | hq
          · exact hak
          · have := above q hq; simp only; omega
      next hak =>
        split
        next hk =>
          subst hk
          by_cases hv : v = 0
          · simpa [hv] using hs.of_cons
          · rw [if_neg hv]
            exact List.pairwise_cons.2 ⟨fun q hq => above q hq, hs.of_cons⟩
        next hk =>
          refine List.pairwise_cons.2 ⟨fun q hq => ?_, tail⟩
          rcases Memory.mem_write m a v q hq with hq | ⟨rfl, -⟩
          · exact above q hq
          · simp only; omega
  · rcases Memory.mem_write m a v p hp with hp | ⟨rfl, hv⟩
    · exact hm.2 p hp
    · exact hv

/-- The fill loop keeps the canonical form. -/
theorem fillUpTo_wf (bufLen : Nat) (b : Slot) (f : Nat → Sample) (m : Memory) (hm : m.wf) (n : Nat) :
    (fillUpTo bufLen b f m n).wf := by
  induction n with
  | zero => exact hm
  | succ n ih => exact Memory.write_wf _ ih _ _

/-- What the fill loop leaves: `f i` at index i of buffer b for the indices below n, the old sample everywhere else. -/
theorem fillUpTo_read (bufLen : Nat) (b : Slot) (f : Nat → Sample) (m : Memory) (hm : m.wf) (n a : Nat) :
    (fillUpTo bufLen b f m n).read a =
      if b.toNat * bufLen ≤ a ∧ a < b.toNat * bufLen + n then f (a - b.toNat * bufLen) else m.read a := by
  induction n with
  | zero => rw [if_neg (by omega)]; rfl
  | succ n ih =>
    rw [fillUpTo, memWrite, sampleAddr, Memory.read_write _ (fillUpTo_wf bufLen b f m hm n), ih]
    by_cases h : a = b.toNat * bufLen + n
    · subst h; simp
    · rw [if_neg h]
      by_cases h' : b.toNat * bufLen ≤ a ∧ a < b.toNat * bufLen + n
      · rw [if_pos h', if_pos (by omega)]
      · rw [if_neg h', if_neg (by omega)]

/-- The addresses the fill loop can list: the old ones and those of the buffer filled. -/
theorem mem_fillUpTo (bufLen : Nat) (b : Slot) (f : Nat → Sample) (m : Memory) (n : Nat) (p : Cell)
    (h : p ∈ fillUpTo bufLen b f m n) : p ∈ m ∨ (b.toNat * bufLen ≤ p.1 ∧ p.1 < b.toNat * bufLen + n) := by
  induction n with
  | zero => exact Or.inl h
  | succ n ih =>
    rcases Memory.mem_write _ _ _ _ h with h | ⟨rfl, -⟩
    · rcases ih h with h | h
      · exact Or.inl h
      · right; omega
    · right; simp only [sampleAddr]; omega

/-- Reset memory is in canonical form. -/
theorem atReset_mem_wf (k : ChanCfg) (m : Meter) (a : Sample) (o : List Sample) : (Chan.atReset k m a o).mem.wf :=
  ⟨List.Pairwise.nil, fun _ h => by cases h⟩

end Sys2Proof.Machine
end

