-- ==== Sys2Proof/Laws/State.lean ====
section
/-! SUPPORT. One lemma per field per named update of a channel or of the block, so that no proof unfolds a record update. -/

namespace Sys2Proof.Machine

/-! `Chan.setTarget`, field by field. -/

@[simp] theorem Chan.setTarget_cfg (c : Chan) (p : Period) (a : Sample) (i : Bool) : (c.setTarget p a i).cfg = c.cfg := rfl
@[simp] theorem Chan.setTarget_envState (c : Chan) (p : Period) (a : Sample) (i : Bool) : (c.setTarget p a i).envState = c.envState := rfl
@[simp] theorem Chan.setTarget_envVel (c : Chan) (p : Period) (a : Sample) (i : Bool) : (c.setTarget p a i).envVel = c.envVel := rfl
@[simp] theorem Chan.setTarget_envHarm (c : Chan) (p : Period) (a : Sample) (i : Bool) : (c.setTarget p a i).envHarm = c.envHarm := rfl
@[simp] theorem Chan.setTarget_dlValid (c : Chan) (p : Period) (a : Sample) (i : Bool) : (c.setTarget p a i).dlValid = c.dlValid := rfl
@[simp] theorem Chan.setTarget_dl (c : Chan) (p : Period) (a : Sample) (i : Bool) : (c.setTarget p a i).dl = c.dl := rfl
@[simp] theorem Chan.setTarget_cfgPeriod (c : Chan) (p : Period) (a : Sample) (i : Bool) : (c.setTarget p a i).cfgPeriod = c.cfgPeriod := rfl
@[simp] theorem Chan.setTarget_capie (c : Chan) (p : Period) (a : Sample) (i : Bool) : (c.setTarget p a i).capie = c.capie := rfl
@[simp] theorem Chan.setTarget_tgtPeriod (c : Chan) (p : Period) (a : Sample) (i : Bool) : (c.setTarget p a i).tgtPeriod = p := rfl
@[simp] theorem Chan.setTarget_tgtAmp (c : Chan) (p : Period) (a : Sample) (i : Bool) : (c.setTarget p a i).tgtAmp = a := rfl
@[simp] theorem Chan.setTarget_tgtInv (c : Chan) (p : Period) (a : Sample) (i : Bool) : (c.setTarget p a i).tgtInv = i := rfl
@[simp] theorem Chan.setTarget_phase (c : Chan) (p : Period) (a : Sample) (i : Bool) : (c.setTarget p a i).phase = c.phase := rfl
@[simp] theorem Chan.setTarget_curBuf (c : Chan) (p : Period) (a : Sample) (i : Bool) : (c.setTarget p a i).curBuf = c.curBuf := rfl
@[simp] theorem Chan.setTarget_nextValid (c : Chan) (p : Period) (a : Sample) (i : Bool) : (c.setTarget p a i).nextValid = c.nextValid := rfl
@[simp] theorem Chan.setTarget_active (c : Chan) (p : Period) (a : Sample) (i : Bool) : (c.setTarget p a i).active = c.active := rfl
@[simp] theorem Chan.setTarget_desc0 (c : Chan) (p : Period) (a : Sample) (i : Bool) : (c.setTarget p a i).desc0 = c.desc0 := rfl
@[simp] theorem Chan.setTarget_desc1 (c : Chan) (p : Period) (a : Sample) (i : Bool) : (c.setTarget p a i).desc1 = c.desc1 := rfl
@[simp] theorem Chan.setTarget_tcf (c : Chan) (p : Period) (a : Sample) (i : Bool) : (c.setTarget p a i).tcf = c.tcf := rfl
@[simp] theorem Chan.setTarget_doneIdx (c : Chan) (p : Period) (a : Sample) (i : Bool) : (c.setTarget p a i).doneIdx = c.doneIdx := rfl
@[simp] theorem Chan.setTarget_engRun (c : Chan) (p : Period) (a : Sample) (i : Bool) : (c.setTarget p a i).engRun = c.engRun := rfl
@[simp] theorem Chan.setTarget_engPtr (c : Chan) (p : Period) (a : Sample) (i : Bool) : (c.setTarget p a i).engPtr = c.engPtr := rfl
@[simp] theorem Chan.setTarget_engBuf (c : Chan) (p : Period) (a : Sample) (i : Bool) : (c.setTarget p a i).engBuf = c.engBuf := rfl
@[simp] theorem Chan.setTarget_engBeat (c : Chan) (p : Period) (a : Sample) (i : Bool) : (c.setTarget p a i).engBeat = c.engBeat := rfl
@[simp] theorem Chan.setTarget_frValid (c : Chan) (p : Period) (a : Sample) (i : Bool) : (c.setTarget p a i).frValid = c.frValid := rfl
@[simp] theorem Chan.setTarget_frPeriod (c : Chan) (p : Period) (a : Sample) (i : Bool) : (c.setTarget p a i).frPeriod = c.frPeriod := rfl
@[simp] theorem Chan.setTarget_frAmp (c : Chan) (p : Period) (a : Sample) (i : Bool) : (c.setTarget p a i).frAmp = c.frAmp := rfl
@[simp] theorem Chan.setTarget_frInv (c : Chan) (p : Period) (a : Sample) (i : Bool) : (c.setTarget p a i).frInv = c.frInv := rfl
@[simp] theorem Chan.setTarget_frPhase (c : Chan) (p : Period) (a : Sample) (i : Bool) : (c.setTarget p a i).frPhase = c.frPhase := rfl
@[simp] theorem Chan.setTarget_chErr (c : Chan) (p : Period) (a : Sample) (i : Bool) : (c.setTarget p a i).chErr = c.chErr := rfl
@[simp] theorem Chan.setTarget_mem (c : Chan) (p : Period) (a : Sample) (i : Bool) : (c.setTarget p a i).mem = c.mem := rfl
@[simp] theorem Chan.setTarget_meter (c : Chan) (p : Period) (a : Sample) (i : Bool) : (c.setTarget p a i).meter = c.meter := rfl
@[simp] theorem Chan.setTarget_ampReg (c : Chan) (p : Period) (a : Sample) (i : Bool) : (c.setTarget p a i).ampReg = c.ampReg := rfl
@[simp] theorem Chan.setTarget_out (c : Chan) (p : Period) (a : Sample) (i : Bool) : (c.setTarget p a i).out = c.out := rfl

/-! `Chan.outWrite`, field by field. -/

@[simp] theorem Chan.outWrite_cfg (c : Chan) (v : Sample) : (c.outWrite v).cfg = c.cfg := rfl
@[simp] theorem Chan.outWrite_envState (c : Chan) (v : Sample) : (c.outWrite v).envState = c.envState := rfl
@[simp] theorem Chan.outWrite_envVel (c : Chan) (v : Sample) : (c.outWrite v).envVel = c.envVel := rfl
@[simp] theorem Chan.outWrite_envHarm (c : Chan) (v : Sample) : (c.outWrite v).envHarm = c.envHarm := rfl
@[simp] theorem Chan.outWrite_dlValid (c : Chan) (v : Sample) : (c.outWrite v).dlValid = c.dlValid := rfl
@[simp] theorem Chan.outWrite_dl (c : Chan) (v : Sample) : (c.outWrite v).dl = c.dl := rfl
@[simp] theorem Chan.outWrite_cfgPeriod (c : Chan) (v : Sample) : (c.outWrite v).cfgPeriod = c.cfgPeriod := rfl
@[simp] theorem Chan.outWrite_capie (c : Chan) (v : Sample) : (c.outWrite v).capie = c.capie := rfl
@[simp] theorem Chan.outWrite_tgtPeriod (c : Chan) (v : Sample) : (c.outWrite v).tgtPeriod = c.tgtPeriod := rfl
@[simp] theorem Chan.outWrite_tgtAmp (c : Chan) (v : Sample) : (c.outWrite v).tgtAmp = c.tgtAmp := rfl
@[simp] theorem Chan.outWrite_tgtInv (c : Chan) (v : Sample) : (c.outWrite v).tgtInv = c.tgtInv := rfl
@[simp] theorem Chan.outWrite_phase (c : Chan) (v : Sample) : (c.outWrite v).phase = c.phase := rfl
@[simp] theorem Chan.outWrite_curBuf (c : Chan) (v : Sample) : (c.outWrite v).curBuf = c.curBuf := rfl
@[simp] theorem Chan.outWrite_nextValid (c : Chan) (v : Sample) : (c.outWrite v).nextValid = c.nextValid := rfl
@[simp] theorem Chan.outWrite_active (c : Chan) (v : Sample) : (c.outWrite v).active = c.active := rfl
@[simp] theorem Chan.outWrite_desc0 (c : Chan) (v : Sample) : (c.outWrite v).desc0 = c.desc0 := rfl
@[simp] theorem Chan.outWrite_desc1 (c : Chan) (v : Sample) : (c.outWrite v).desc1 = c.desc1 := rfl
@[simp] theorem Chan.outWrite_tcf (c : Chan) (v : Sample) : (c.outWrite v).tcf = c.tcf := rfl
@[simp] theorem Chan.outWrite_doneIdx (c : Chan) (v : Sample) : (c.outWrite v).doneIdx = c.doneIdx := rfl
@[simp] theorem Chan.outWrite_engRun (c : Chan) (v : Sample) : (c.outWrite v).engRun = c.engRun := rfl
@[simp] theorem Chan.outWrite_engPtr (c : Chan) (v : Sample) : (c.outWrite v).engPtr = c.engPtr := rfl
@[simp] theorem Chan.outWrite_engBuf (c : Chan) (v : Sample) : (c.outWrite v).engBuf = c.engBuf := rfl
@[simp] theorem Chan.outWrite_engBeat (c : Chan) (v : Sample) : (c.outWrite v).engBeat = c.engBeat := rfl
@[simp] theorem Chan.outWrite_frValid (c : Chan) (v : Sample) : (c.outWrite v).frValid = c.frValid := rfl
@[simp] theorem Chan.outWrite_frPeriod (c : Chan) (v : Sample) : (c.outWrite v).frPeriod = c.frPeriod := rfl
@[simp] theorem Chan.outWrite_frAmp (c : Chan) (v : Sample) : (c.outWrite v).frAmp = c.frAmp := rfl
@[simp] theorem Chan.outWrite_frInv (c : Chan) (v : Sample) : (c.outWrite v).frInv = c.frInv := rfl
@[simp] theorem Chan.outWrite_frPhase (c : Chan) (v : Sample) : (c.outWrite v).frPhase = c.frPhase := rfl
@[simp] theorem Chan.outWrite_chErr (c : Chan) (v : Sample) : (c.outWrite v).chErr = c.chErr := rfl
@[simp] theorem Chan.outWrite_mem (c : Chan) (v : Sample) : (c.outWrite v).mem = c.mem := rfl
@[simp] theorem Chan.outWrite_meter (c : Chan) (v : Sample) : (c.outWrite v).meter = c.meter := rfl
@[simp] theorem Chan.outWrite_ampReg (c : Chan) (v : Sample) : (c.outWrite v).ampReg = v := rfl
@[simp] theorem Chan.outWrite_out (c : Chan) (v : Sample) : (c.outWrite v).out = c.out ++ [v] := rfl

/-! `Chan.setProtocolErr`, field by field. -/

@[simp] theorem Chan.setProtocolErr_cfg (c : Chan) : (c.setProtocolErr).cfg = c.cfg := rfl
@[simp] theorem Chan.setProtocolErr_envState (c : Chan) : (c.setProtocolErr).envState = c.envState := rfl
@[simp] theorem Chan.setProtocolErr_envVel (c : Chan) : (c.setProtocolErr).envVel = c.envVel := rfl
@[simp] theorem Chan.setProtocolErr_envHarm (c : Chan) : (c.setProtocolErr).envHarm = c.envHarm := rfl
@[simp] theorem Chan.setProtocolErr_dlValid (c : Chan) : (c.setProtocolErr).dlValid = c.dlValid := rfl
@[simp] theorem Chan.setProtocolErr_dl (c : Chan) : (c.setProtocolErr).dl = c.dl := rfl
@[simp] theorem Chan.setProtocolErr_cfgPeriod (c : Chan) : (c.setProtocolErr).cfgPeriod = c.cfgPeriod := rfl
@[simp] theorem Chan.setProtocolErr_capie (c : Chan) : (c.setProtocolErr).capie = c.capie := rfl
@[simp] theorem Chan.setProtocolErr_tgtPeriod (c : Chan) : (c.setProtocolErr).tgtPeriod = c.tgtPeriod := rfl
@[simp] theorem Chan.setProtocolErr_tgtAmp (c : Chan) : (c.setProtocolErr).tgtAmp = c.tgtAmp := rfl
@[simp] theorem Chan.setProtocolErr_tgtInv (c : Chan) : (c.setProtocolErr).tgtInv = c.tgtInv := rfl
@[simp] theorem Chan.setProtocolErr_phase (c : Chan) : (c.setProtocolErr).phase = c.phase := rfl
@[simp] theorem Chan.setProtocolErr_curBuf (c : Chan) : (c.setProtocolErr).curBuf = c.curBuf := rfl
@[simp] theorem Chan.setProtocolErr_nextValid (c : Chan) : (c.setProtocolErr).nextValid = c.nextValid := rfl
@[simp] theorem Chan.setProtocolErr_active (c : Chan) : (c.setProtocolErr).active = c.active := rfl
@[simp] theorem Chan.setProtocolErr_desc0 (c : Chan) : (c.setProtocolErr).desc0 = c.desc0 := rfl
@[simp] theorem Chan.setProtocolErr_desc1 (c : Chan) : (c.setProtocolErr).desc1 = c.desc1 := rfl
@[simp] theorem Chan.setProtocolErr_tcf (c : Chan) : (c.setProtocolErr).tcf = c.tcf := rfl
@[simp] theorem Chan.setProtocolErr_doneIdx (c : Chan) : (c.setProtocolErr).doneIdx = c.doneIdx := rfl
@[simp] theorem Chan.setProtocolErr_engRun (c : Chan) : (c.setProtocolErr).engRun = c.engRun := rfl
@[simp] theorem Chan.setProtocolErr_engPtr (c : Chan) : (c.setProtocolErr).engPtr = c.engPtr := rfl
@[simp] theorem Chan.setProtocolErr_engBuf (c : Chan) : (c.setProtocolErr).engBuf = c.engBuf := rfl
@[simp] theorem Chan.setProtocolErr_engBeat (c : Chan) : (c.setProtocolErr).engBeat = c.engBeat := rfl
@[simp] theorem Chan.setProtocolErr_frValid (c : Chan) : (c.setProtocolErr).frValid = c.frValid := rfl
@[simp] theorem Chan.setProtocolErr_frPeriod (c : Chan) : (c.setProtocolErr).frPeriod = c.frPeriod := rfl
@[simp] theorem Chan.setProtocolErr_frAmp (c : Chan) : (c.setProtocolErr).frAmp = c.frAmp := rfl
@[simp] theorem Chan.setProtocolErr_frInv (c : Chan) : (c.setProtocolErr).frInv = c.frInv := rfl
@[simp] theorem Chan.setProtocolErr_frPhase (c : Chan) : (c.setProtocolErr).frPhase = c.frPhase := rfl
@[simp] theorem Chan.setProtocolErr_chErr (c : Chan) : (c.setProtocolErr).chErr = { c.chErr with protocol := true } := rfl
@[simp] theorem Chan.setProtocolErr_mem (c : Chan) : (c.setProtocolErr).mem = c.mem := rfl
@[simp] theorem Chan.setProtocolErr_meter (c : Chan) : (c.setProtocolErr).meter = c.meter := rfl
@[simp] theorem Chan.setProtocolErr_ampReg (c : Chan) : (c.setProtocolErr).ampReg = c.ampReg := rfl
@[simp] theorem Chan.setProtocolErr_out (c : Chan) : (c.setProtocolErr).out = c.out := rfl

/-! `Chan.setPrecondErr`, field by field. -/

@[simp] theorem Chan.setPrecondErr_cfg (c : Chan) : (c.setPrecondErr).cfg = c.cfg := rfl
@[simp] theorem Chan.setPrecondErr_envState (c : Chan) : (c.setPrecondErr).envState = c.envState := rfl
@[simp] theorem Chan.setPrecondErr_envVel (c : Chan) : (c.setPrecondErr).envVel = c.envVel := rfl
@[simp] theorem Chan.setPrecondErr_envHarm (c : Chan) : (c.setPrecondErr).envHarm = c.envHarm := rfl
@[simp] theorem Chan.setPrecondErr_dlValid (c : Chan) : (c.setPrecondErr).dlValid = c.dlValid := rfl
@[simp] theorem Chan.setPrecondErr_dl (c : Chan) : (c.setPrecondErr).dl = c.dl := rfl
@[simp] theorem Chan.setPrecondErr_cfgPeriod (c : Chan) : (c.setPrecondErr).cfgPeriod = c.cfgPeriod := rfl
@[simp] theorem Chan.setPrecondErr_capie (c : Chan) : (c.setPrecondErr).capie = c.capie := rfl
@[simp] theorem Chan.setPrecondErr_tgtPeriod (c : Chan) : (c.setPrecondErr).tgtPeriod = c.tgtPeriod := rfl
@[simp] theorem Chan.setPrecondErr_tgtAmp (c : Chan) : (c.setPrecondErr).tgtAmp = c.tgtAmp := rfl
@[simp] theorem Chan.setPrecondErr_tgtInv (c : Chan) : (c.setPrecondErr).tgtInv = c.tgtInv := rfl
@[simp] theorem Chan.setPrecondErr_phase (c : Chan) : (c.setPrecondErr).phase = c.phase := rfl
@[simp] theorem Chan.setPrecondErr_curBuf (c : Chan) : (c.setPrecondErr).curBuf = c.curBuf := rfl
@[simp] theorem Chan.setPrecondErr_nextValid (c : Chan) : (c.setPrecondErr).nextValid = c.nextValid := rfl
@[simp] theorem Chan.setPrecondErr_active (c : Chan) : (c.setPrecondErr).active = c.active := rfl
@[simp] theorem Chan.setPrecondErr_desc0 (c : Chan) : (c.setPrecondErr).desc0 = c.desc0 := rfl
@[simp] theorem Chan.setPrecondErr_desc1 (c : Chan) : (c.setPrecondErr).desc1 = c.desc1 := rfl
@[simp] theorem Chan.setPrecondErr_tcf (c : Chan) : (c.setPrecondErr).tcf = c.tcf := rfl
@[simp] theorem Chan.setPrecondErr_doneIdx (c : Chan) : (c.setPrecondErr).doneIdx = c.doneIdx := rfl
@[simp] theorem Chan.setPrecondErr_engRun (c : Chan) : (c.setPrecondErr).engRun = c.engRun := rfl
@[simp] theorem Chan.setPrecondErr_engPtr (c : Chan) : (c.setPrecondErr).engPtr = c.engPtr := rfl
@[simp] theorem Chan.setPrecondErr_engBuf (c : Chan) : (c.setPrecondErr).engBuf = c.engBuf := rfl
@[simp] theorem Chan.setPrecondErr_engBeat (c : Chan) : (c.setPrecondErr).engBeat = c.engBeat := rfl
@[simp] theorem Chan.setPrecondErr_frValid (c : Chan) : (c.setPrecondErr).frValid = c.frValid := rfl
@[simp] theorem Chan.setPrecondErr_frPeriod (c : Chan) : (c.setPrecondErr).frPeriod = c.frPeriod := rfl
@[simp] theorem Chan.setPrecondErr_frAmp (c : Chan) : (c.setPrecondErr).frAmp = c.frAmp := rfl
@[simp] theorem Chan.setPrecondErr_frInv (c : Chan) : (c.setPrecondErr).frInv = c.frInv := rfl
@[simp] theorem Chan.setPrecondErr_frPhase (c : Chan) : (c.setPrecondErr).frPhase = c.frPhase := rfl
@[simp] theorem Chan.setPrecondErr_chErr (c : Chan) : (c.setPrecondErr).chErr = { c.chErr with precond := true } := rfl
@[simp] theorem Chan.setPrecondErr_mem (c : Chan) : (c.setPrecondErr).mem = c.mem := rfl
@[simp] theorem Chan.setPrecondErr_meter (c : Chan) : (c.setPrecondErr).meter = c.meter := rfl
@[simp] theorem Chan.setPrecondErr_ampReg (c : Chan) : (c.setPrecondErr).ampReg = c.ampReg := rfl
@[simp] theorem Chan.setPrecondErr_out (c : Chan) : (c.setPrecondErr).out = c.out := rfl

/-! `Chan.setMissedErr`, field by field. -/

@[simp] theorem Chan.setMissedErr_cfg (c : Chan) : (c.setMissedErr).cfg = c.cfg := rfl
@[simp] theorem Chan.setMissedErr_envState (c : Chan) : (c.setMissedErr).envState = c.envState := rfl
@[simp] theorem Chan.setMissedErr_envVel (c : Chan) : (c.setMissedErr).envVel = c.envVel := rfl
@[simp] theorem Chan.setMissedErr_envHarm (c : Chan) : (c.setMissedErr).envHarm = c.envHarm := rfl
@[simp] theorem Chan.setMissedErr_dlValid (c : Chan) : (c.setMissedErr).dlValid = c.dlValid := rfl
@[simp] theorem Chan.setMissedErr_dl (c : Chan) : (c.setMissedErr).dl = c.dl := rfl
@[simp] theorem Chan.setMissedErr_cfgPeriod (c : Chan) : (c.setMissedErr).cfgPeriod = c.cfgPeriod := rfl
@[simp] theorem Chan.setMissedErr_capie (c : Chan) : (c.setMissedErr).capie = c.capie := rfl
@[simp] theorem Chan.setMissedErr_tgtPeriod (c : Chan) : (c.setMissedErr).tgtPeriod = c.tgtPeriod := rfl
@[simp] theorem Chan.setMissedErr_tgtAmp (c : Chan) : (c.setMissedErr).tgtAmp = c.tgtAmp := rfl
@[simp] theorem Chan.setMissedErr_tgtInv (c : Chan) : (c.setMissedErr).tgtInv = c.tgtInv := rfl
@[simp] theorem Chan.setMissedErr_phase (c : Chan) : (c.setMissedErr).phase = c.phase := rfl
@[simp] theorem Chan.setMissedErr_curBuf (c : Chan) : (c.setMissedErr).curBuf = c.curBuf := rfl
@[simp] theorem Chan.setMissedErr_nextValid (c : Chan) : (c.setMissedErr).nextValid = c.nextValid := rfl
@[simp] theorem Chan.setMissedErr_active (c : Chan) : (c.setMissedErr).active = c.active := rfl
@[simp] theorem Chan.setMissedErr_desc0 (c : Chan) : (c.setMissedErr).desc0 = c.desc0 := rfl
@[simp] theorem Chan.setMissedErr_desc1 (c : Chan) : (c.setMissedErr).desc1 = c.desc1 := rfl
@[simp] theorem Chan.setMissedErr_tcf (c : Chan) : (c.setMissedErr).tcf = c.tcf := rfl
@[simp] theorem Chan.setMissedErr_doneIdx (c : Chan) : (c.setMissedErr).doneIdx = c.doneIdx := rfl
@[simp] theorem Chan.setMissedErr_engRun (c : Chan) : (c.setMissedErr).engRun = c.engRun := rfl
@[simp] theorem Chan.setMissedErr_engPtr (c : Chan) : (c.setMissedErr).engPtr = c.engPtr := rfl
@[simp] theorem Chan.setMissedErr_engBuf (c : Chan) : (c.setMissedErr).engBuf = c.engBuf := rfl
@[simp] theorem Chan.setMissedErr_engBeat (c : Chan) : (c.setMissedErr).engBeat = c.engBeat := rfl
@[simp] theorem Chan.setMissedErr_frValid (c : Chan) : (c.setMissedErr).frValid = c.frValid := rfl
@[simp] theorem Chan.setMissedErr_frPeriod (c : Chan) : (c.setMissedErr).frPeriod = c.frPeriod := rfl
@[simp] theorem Chan.setMissedErr_frAmp (c : Chan) : (c.setMissedErr).frAmp = c.frAmp := rfl
@[simp] theorem Chan.setMissedErr_frInv (c : Chan) : (c.setMissedErr).frInv = c.frInv := rfl
@[simp] theorem Chan.setMissedErr_frPhase (c : Chan) : (c.setMissedErr).frPhase = c.frPhase := rfl
@[simp] theorem Chan.setMissedErr_chErr (c : Chan) : (c.setMissedErr).chErr = { c.chErr with missed := true } := rfl
@[simp] theorem Chan.setMissedErr_mem (c : Chan) : (c.setMissedErr).mem = c.mem := rfl
@[simp] theorem Chan.setMissedErr_meter (c : Chan) : (c.setMissedErr).meter = c.meter := rfl
@[simp] theorem Chan.setMissedErr_ampReg (c : Chan) : (c.setMissedErr).ampReg = c.ampReg := rfl
@[simp] theorem Chan.setMissedErr_out (c : Chan) : (c.setMissedErr).out = c.out := rfl

/-! `Chan.setDesc`, field by field; the two descriptors follow its index. -/

@[simp] theorem Chan.setDesc_cfg (c : Chan) (d : Slot) (v : Desc) : (c.setDesc d v).cfg = c.cfg := by
  unfold Chan.setDesc; split <;> rfl
@[simp] theorem Chan.setDesc_envState (c : Chan) (d : Slot) (v : Desc) : (c.setDesc d v).envState = c.envState := by
  unfold Chan.setDesc; split <;> rfl
@[simp] theorem Chan.setDesc_envVel (c : Chan) (d : Slot) (v : Desc) : (c.setDesc d v).envVel = c.envVel := by
  unfold Chan.setDesc; split <;> rfl
@[simp] theorem Chan.setDesc_envHarm (c : Chan) (d : Slot) (v : Desc) : (c.setDesc d v).envHarm = c.envHarm := by
  unfold Chan.setDesc; split <;> rfl
@[simp] theorem Chan.setDesc_dlValid (c : Chan) (d : Slot) (v : Desc) : (c.setDesc d v).dlValid = c.dlValid := by
  unfold Chan.setDesc; split <;> rfl
@[simp] theorem Chan.setDesc_dl (c : Chan) (d : Slot) (v : Desc) : (c.setDesc d v).dl = c.dl := by
  unfold Chan.setDesc; split <;> rfl
@[simp] theorem Chan.setDesc_cfgPeriod (c : Chan) (d : Slot) (v : Desc) : (c.setDesc d v).cfgPeriod = c.cfgPeriod := by
  unfold Chan.setDesc; split <;> rfl
@[simp] theorem Chan.setDesc_capie (c : Chan) (d : Slot) (v : Desc) : (c.setDesc d v).capie = c.capie := by
  unfold Chan.setDesc; split <;> rfl
@[simp] theorem Chan.setDesc_tgtPeriod (c : Chan) (d : Slot) (v : Desc) : (c.setDesc d v).tgtPeriod = c.tgtPeriod := by
  unfold Chan.setDesc; split <;> rfl
@[simp] theorem Chan.setDesc_tgtAmp (c : Chan) (d : Slot) (v : Desc) : (c.setDesc d v).tgtAmp = c.tgtAmp := by
  unfold Chan.setDesc; split <;> rfl
@[simp] theorem Chan.setDesc_tgtInv (c : Chan) (d : Slot) (v : Desc) : (c.setDesc d v).tgtInv = c.tgtInv := by
  unfold Chan.setDesc; split <;> rfl
@[simp] theorem Chan.setDesc_phase (c : Chan) (d : Slot) (v : Desc) : (c.setDesc d v).phase = c.phase := by
  unfold Chan.setDesc; split <;> rfl
@[simp] theorem Chan.setDesc_curBuf (c : Chan) (d : Slot) (v : Desc) : (c.setDesc d v).curBuf = c.curBuf := by
  unfold Chan.setDesc; split <;> rfl
@[simp] theorem Chan.setDesc_nextValid (c : Chan) (d : Slot) (v : Desc) : (c.setDesc d v).nextValid = c.nextValid := by
  unfold Chan.setDesc; split <;> rfl
@[simp] theorem Chan.setDesc_active (c : Chan) (d : Slot) (v : Desc) : (c.setDesc d v).active = c.active := by
  unfold Chan.setDesc; split <;> rfl
@[simp] theorem Chan.setDesc_tcf (c : Chan) (d : Slot) (v : Desc) : (c.setDesc d v).tcf = c.tcf := by
  unfold Chan.setDesc; split <;> rfl
@[simp] theorem Chan.setDesc_doneIdx (c : Chan) (d : Slot) (v : Desc) : (c.setDesc d v).doneIdx = c.doneIdx := by
  unfold Chan.setDesc; split <;> rfl
@[simp] theorem Chan.setDesc_engRun (c : Chan) (d : Slot) (v : Desc) : (c.setDesc d v).engRun = c.engRun := by
  unfold Chan.setDesc; split <;> rfl
@[simp] theorem Chan.setDesc_engPtr (c : Chan) (d : Slot) (v : Desc) : (c.setDesc d v).engPtr = c.engPtr := by
  unfold Chan.setDesc; split <;> rfl
@[simp] theorem Chan.setDesc_engBuf (c : Chan) (d : Slot) (v : Desc) : (c.setDesc d v).engBuf = c.engBuf := by
  unfold Chan.setDesc; split <;> rfl
@[simp] theorem Chan.setDesc_engBeat (c : Chan) (d : Slot) (v : Desc) : (c.setDesc d v).engBeat = c.engBeat := by
  unfold Chan.setDesc; split <;> rfl
@[simp] theorem Chan.setDesc_frValid (c : Chan) (d : Slot) (v : Desc) : (c.setDesc d v).frValid = c.frValid := by
  unfold Chan.setDesc; split <;> rfl
@[simp] theorem Chan.setDesc_frPeriod (c : Chan) (d : Slot) (v : Desc) : (c.setDesc d v).frPeriod = c.frPeriod := by
  unfold Chan.setDesc; split <;> rfl
@[simp] theorem Chan.setDesc_frAmp (c : Chan) (d : Slot) (v : Desc) : (c.setDesc d v).frAmp = c.frAmp := by
  unfold Chan.setDesc; split <;> rfl
@[simp] theorem Chan.setDesc_frInv (c : Chan) (d : Slot) (v : Desc) : (c.setDesc d v).frInv = c.frInv := by
  unfold Chan.setDesc; split <;> rfl
@[simp] theorem Chan.setDesc_frPhase (c : Chan) (d : Slot) (v : Desc) : (c.setDesc d v).frPhase = c.frPhase := by
  unfold Chan.setDesc; split <;> rfl
@[simp] theorem Chan.setDesc_chErr (c : Chan) (d : Slot) (v : Desc) : (c.setDesc d v).chErr = c.chErr := by
  unfold Chan.setDesc; split <;> rfl
@[simp] theorem Chan.setDesc_mem (c : Chan) (d : Slot) (v : Desc) : (c.setDesc d v).mem = c.mem := by
  unfold Chan.setDesc; split <;> rfl
@[simp] theorem Chan.setDesc_meter (c : Chan) (d : Slot) (v : Desc) : (c.setDesc d v).meter = c.meter := by
  unfold Chan.setDesc; split <;> rfl
@[simp] theorem Chan.setDesc_ampReg (c : Chan) (d : Slot) (v : Desc) : (c.setDesc d v).ampReg = c.ampReg := by
  unfold Chan.setDesc; split <;> rfl
@[simp] theorem Chan.setDesc_out (c : Chan) (d : Slot) (v : Desc) : (c.setDesc d v).out = c.out := by
  unfold Chan.setDesc; split <;> rfl

/-- A descriptor written is the one read back. -/
@[simp] theorem Chan.desc_setDesc_same (c : Chan) (d : Slot) (v : Desc) : (c.setDesc d v).desc d = v := by
  unfold Chan.setDesc Chan.desc; split <;> rfl

/-- The other descriptor is left alone. -/
theorem Chan.desc_setDesc_ne (c : Chan) (d e : Slot) (v : Desc) (h : e ≠ d) : (c.setDesc d v).desc e = c.desc e := by
  have two : ∀ x : Slot, x = 0 ∨ x = 1 := by decide
  rcases two d with rfl | rfl <;> rcases two e with rfl | rfl <;> first | exact absurd rfl h | rfl

/-! `State.finish`, `State.raise` and `placeEvent`, field by field. -/

@[simp] theorem State.finish_block (s : State) (n : Nat) (c : Chan) (r : Response) : (s.finish n c r).block = s.block := rfl
@[simp] theorem State.finish_chans (s : State) (n : Nat) (c : Chan) (r : Response) : (s.finish n c r).chans = s.chans.set n c := rfl
@[simp] theorem State.finish_glbErr (s : State) (n : Nat) (c : Chan) (r : Response) : (s.finish n c r).glbErr = s.glbErr := rfl
@[simp] theorem State.finish_rsp (s : State) (n : Nat) (c : Chan) (r : Response) : (s.finish n c r).rsp = r := rfl
@[simp] theorem State.finish_now (s : State) (n : Nat) (c : Chan) (r : Response) : (s.finish n c r).now = s.now := rfl
@[simp] theorem State.finish_pending (s : State) (n : Nat) (c : Chan) (r : Response) : (s.finish n c r).pending = s.pending := rfl
@[simp] theorem State.raise_block (s : State) (k : FaultKind) (n : Nat) : (s.raise k n).block = s.block := by cases k <;> rfl
@[simp] theorem State.raise_illegal_chans (s : State) (n : Nat) : (s.raise .illegal n).chans = s.chans := rfl
@[simp] theorem State.raise_protocol_chans (s : State) (n : Nat) :
    (s.raise .protocol n).chans = s.chans.modify n Chan.setProtocolErr := rfl
@[simp] theorem State.raise_precond_chans (s : State) (n : Nat) :
    (s.raise .precond n).chans = s.chans.modify n Chan.setPrecondErr := rfl
@[simp] theorem State.raise_illegal_glbErr (s : State) (n : Nat) : (s.raise .illegal n).glbErr = true := rfl
@[simp] theorem State.raise_protocol_glbErr (s : State) (n : Nat) : (s.raise .protocol n).glbErr = s.glbErr := rfl
@[simp] theorem State.raise_precond_glbErr (s : State) (n : Nat) : (s.raise .precond n).glbErr = s.glbErr := rfl
@[simp] theorem State.raise_rsp (s : State) (k : FaultKind) (n : Nat) :
    (s.raise k n).rsp = { sts := faultStatus k, isSome := false, val := 0 } := rfl
@[simp] theorem State.raise_now (s : State) (k : FaultKind) (n : Nat) : (s.raise k n).now = s.now := by cases k <;> rfl
@[simp] theorem State.raise_pending (s : State) (k : FaultKind) (n : Nat) : (s.raise k n).pending = s.pending := by cases k <;> rfl
@[simp] theorem placeEvent_block (e : Event) (s : State) : (placeEvent e s).block = s.block := rfl
@[simp] theorem placeEvent_chans (e : Event) (s : State) : (placeEvent e s).chans = s.chans := rfl
@[simp] theorem placeEvent_glbErr (e : Event) (s : State) : (placeEvent e s).glbErr = s.glbErr := rfl
@[simp] theorem placeEvent_rsp (e : Event) (s : State) : (placeEvent e s).rsp = s.rsp := rfl
@[simp] theorem placeEvent_now (e : Event) (s : State) : (placeEvent e s).now = s.now := rfl
@[simp] theorem placeEvent_pending (e : Event) (s : State) : (placeEvent e s).pending = e :: s.pending := rfl
end Sys2Proof.Machine
end

