-- ==== Sys2Proof/Laws/Ops.lean ====
section
/-! SUPPORT. What each shared operation can do, said once. -/

namespace Sys2Proof.Machine

/-- `1 - x` is never x, and twice is x. -/
@[simp] theorem otherSlot_ne (x : Slot) : otherSlot x ≠ x := by revert x; decide
@[simp] theorem otherSlot_otherSlot (x : Slot) : otherSlot (otherSlot x) = x := by revert x; decide
theorem otherSlot_of_ne (x y : Slot) (h : x ≠ y) : x = otherSlot y := by revert x y; decide

/-- A command that answers a next state was refused for its channel, or ran its rule on it. -/
theorem onChannel_next {ch : ChanIdx} {s t : State} {rule : Chan → Reply} (h : onChannel ch s rule = .next t) :
    (s.chans[ch.toNat]? = none ∧ t = s.raise .illegal ch.toNat) ∨
    ∃ c, s.chans[ch.toNat]? = some c ∧
      ((∃ c' r, rule c = .done c' r ∧ t = s.finish ch.toNat c' r) ∨ ∃ k, rule c = .refuse k ∧ t = s.raise k ch.toNat) := by
  unfold onChannel at h
  split at h
  next hn => exact Or.inl ⟨hn, (Host.Outcome.next.inj h).symm⟩
  next c hc =>
    refine Or.inr ⟨c, hc, ?_⟩
    split at h
    next c' r hr => exact Or.inl ⟨c', r, hr, (Host.Outcome.next.inj h).symm⟩
    next k hk => exact Or.inr ⟨k, hk, (Host.Outcome.next.inj h).symm⟩
    next => cases h

/-- A command on a channel that exists runs its rule on it. -/
theorem onChannel_some {ch : ChanIdx} {s : State} {rule : Chan → Reply} {c : Chan} (h : s.chans[ch.toNat]? = some c) :
    onChannel ch s rule = match rule c with
      | .done c' r => .next (s.finish ch.toNat c' r)
      | .refuse k => .next (s.raise k ch.toNat)
      | .stop f => .fault f := by
  cases hr : rule c <;> simp [onChannel, h, hr]

/-- A command on a channel that does not exist is ILLEGAL. -/
theorem onChannel_none {ch : ChanIdx} {s : State} {rule : Chan → Reply} (h : s.chans[ch.toNat]? = none) :
    onChannel ch s rule = .next (s.raise .illegal ch.toNat) := by
  unfold onChannel; rw [h]

/-- Under a well-formed configuration a step is the next agent step. -/
theorem step_of_valid {s : State} (h : s.config.Valid) : step s = runPending s := if_pos h

/-- A step that answers a next state had a well-formed configuration, and was the next agent step. -/
theorem step_next {s t : State} (h : step s = .next t) : s.config.Valid ∧ runPending s = .next t := by
  unfold step at h
  split at h
  · exact ⟨‹_›, h⟩
  · cases h

/-- Under a well-formed configuration an agent step is its agent's rule, the steps to come left alone. -/
theorem agentStep_of_valid {e : Event} {s : State} (h : s.config.Valid) : agentStep e s = runEvent e s := if_pos h

/-- The step of a state whose list begins with e is e's agent step, with e taken off the list. -/
theorem step_eq_agentStep {s : State} {e : Event} {rest : List Event} (h : s.pending = e :: rest) :
    step s = agentStep e { s with pending := rest } := by
  unfold agentStep placeEvent
  rw [← h]

/-- An agent's rule neither reads nor writes the steps to come. -/
theorem runEvent_pending {e : Event} {s t : State} (l : List Event) (h : runEvent e s = .next t) :
    runEvent e { s with pending := l } = .next { t with pending := l } := by
  have command : ∀ (ch : ChanIdx) (rule : Chan → Reply), onChannel ch s rule = .next t →
      onChannel ch { s with pending := l } rule = .next { t with pending := l } := by
    intro ch rule h
    rcases onChannel_next h with ⟨hn, rfl⟩ | ⟨c, hc, ⟨c', r, hr, rfl⟩ | ⟨k, hk, rfl⟩⟩
    · rw [onChannel_none (by exact hn)]; rfl
    · rw [onChannel_some (c := c) (by exact hc), hr]; rfl
    · rw [onChannel_some (c := c) (by exact hc), hk]; cases k <;> rfl
  cases e with
  | command w =>
    simp only [runEvent, runCommand] at h ⊢
    split at h
    · cases h; rfl
    · rename_i i _
      cases i <;> exact command _ _ h
  | beat ch =>
    simp only [runEvent, runBeat] at h ⊢
    split at h
    · cases h
    · split at h <;> cases h; simp [*]
  | capture ch m v =>
    simp only [runEvent, runCapture] at h ⊢
    split at h
    · cases h
    · split at h <;> cases h; simp [*]
  | time => cases h; rfl
  | reset => cases h; rfl

/-- The machine's iterated step, one step at a time. -/
theorem core_run_zero {s : State} : core.run 0 s = .next s := rfl
theorem core_run_succ {k : Nat} {s t : State} (h : step s = .next t) : core.run (k + 1) s = core.run k t := by
  have unroll : ∀ (M : Host.Core) (u v : M.State), M.step u = .next v → M.run (k + 1) u = M.run k v := by
    intro M u v h; rw [Host.Core.run, h]
  exact unroll core s t h

/-- Recompute, where it gives a channel, writes the three targets and nothing else. -/
theorem recompute_some {c c' : Chan} (h : recompute c = some c') :
    (driveHarm c).toNat ≠ 0 ∧ c' = c.setTarget (BitVec.ofNat 32 (c.cfgPeriod.toNat / (driveHarm c).toNat))
      (applyVelocity (baseAmp c.cfg c.envState) c.envVel) (decide (c.envState = .release)) := by
  unfold recompute at h
  split at h
  · cases h
  · exact ⟨‹_›, (Option.some.inj h).symm⟩

/-- Recompute gives a channel wherever the harmonic is not 0. -/
theorem recompute_of_ne {c : Chan} (h : (driveHarm c).toNat ≠ 0) :
    recompute c = some (c.setTarget (BitVec.ofNat 32 (c.cfgPeriod.toNat / (driveHarm c).toNat))
      (applyVelocity (baseAmp c.cfg c.envState) c.envVel) (decide (c.envState = .release))) := by
  unfold recompute; rw [if_neg h]

/-- A fetch runs a valid descriptor's buffer from beat 0. -/
theorem fetch_valid {c : Chan} {p : Slot} (h : (c.desc p).valid = true) :
    fetch c p = { c with engPtr := p, engRun := true, engBuf := (c.desc p).buf, engBeat := 0 } := by
  unfold fetch; rw [if_pos h]

/-- A fetch of an invalid descriptor pauses. -/
theorem fetch_invalid {c : Chan} {p : Slot} (h : (c.desc p).valid = false) :
    fetch c p = { c with engPtr := p, engRun := false } := by
  unfold fetch; rw [if_neg (by simp [h])]

end Sys2Proof.Machine
end

