-- ==== Sys2Proof/Laws/PerInstr.lean ====
section
/-! SUPPORT. The family EncodedFields, one lemma per command: the encoder puts OP and CH where 30_encoding.md R90 says and
leaves every reserved bit of the format 0 (R91). -/

namespace Sys2Proof.Laws.EncodedFields

/-- The word of a command holds its opcode in [63:60] and its channel in [59:52], and no reserved bit. -/
def Statement (i : Instr) : Prop :=
  opField (encode i) = i.opcode ∧ chField (encode i) = i.ch ∧ encode i &&& i.format.reserved = 0#64

/-- A word's bits, read off the layout of 30_encoding.md R90. -/
theorem getLsbD_encode (i : Instr) (k : Nat) : (encode i).getLsbD k =
    if k < 52 then i.operands.getLsbD k
    else if k - 52 < 8 then i.ch.getLsbD (k - 52) else i.opcode.getLsbD (k - 60) := by
  have outer := BitVec.getLsbD_append (x := i.opcode ++ i.ch) (y := i.operands) (i := k)
  have inner := BitVec.getLsbD_append (x := i.opcode) (y := i.ch) (i := k - 52)
  rw [Nat.sub_sub] at inner
  rw [inner] at outer
  exact outer

/-- OP and CH lie above the operands, whatever those are. -/
theorem header (i : Instr) : opField (encode i) = i.opcode ∧ chField (encode i) = i.ch := by
  constructor <;> apply BitVec.eq_of_getLsbD_eq <;> intro k hk
  · rw [opField, BitVec.getLsbD_extractLsb', getLsbD_encode, if_neg (by omega), if_neg (by omega)]
    simp [hk]
  · rw [chField, BitVec.getLsbD_extractLsb', getLsbD_encode, if_neg (by omega), if_pos (by omega)]
    simp [hk]

/-- The reserved bits of each format, as the ranges 30_encoding.md R91 lists. -/
def reservedRange (f : Format) (k : Nat) : Prop :=
  match f with
  | .n => k < 52
  | .v => 8 ≤ k ∧ k < 52
  | .vh => (8 ≤ k ∧ k < 16) ∨ (32 ≤ k ∧ k < 52)
  | .b => 1 ≤ k ∧ k < 52
  | .s => 48 ≤ k ∧ k < 51
  | .r => 8 ≤ k ∧ k < 52
  | .m => 33 ≤ k ∧ k < 52

/-- The masks are those ranges. -/
theorem reserved_range (f : Format) (k : Nat) (h : f.reserved.getLsbD k = true) : reservedRange f k ∧ k < 52 := by
  have hk : k < 64 := by
    by_contra hk
    rw [BitVec.getLsbD_of_ge _ _ (by omega)] at h
    cases h
  have all : ∀ f : Format, ∀ j : Fin 64, f.reserved.getLsbD j.1 = true → reservedRange f j.1 ∧ j.1 < 52 := by
    intro f
    cases f <;> unfold reservedRange <;> decide
  exact all f ⟨k, hk⟩ h

/-- A word whose operand bits are 0 on the ranges has no reserved bit set. -/
theorem no_reserved (i : Instr) (h : ∀ k, k < 52 → reservedRange i.format k → i.operands.getLsbD k = false) :
    encode i &&& i.format.reserved = 0#64 := by
  apply BitVec.eq_of_getLsbD_eq
  intro k _
  rw [BitVec.getLsbD_and, BitVec.getLsbD_zero, Bool.and_eq_false_iff]
  by_cases hr : i.format.reserved.getLsbD k = true
  · have hk := reserved_range _ _ hr
    left
    rw [getLsbD_encode, if_pos hk.2]
    exact h k hk.2 hk.1
  · right
    simpa using hr

/-- Bits above an operand's field are the zeros the format puts there. -/
theorem zeros_above {n m : Nat} (x : BitVec m) (k : Nat) (h : m ≤ k) : (0#n ++ x).getLsbD k = false := by
  rw [BitVec.getLsbD_append, if_neg (by omega), BitVec.getLsbD_zero]

theorem on (ch : ChanIdx) (vel : Velocity) (harm : Harmonic) : Statement (.on ch vel harm) := by
  refine ⟨(header _).1, (header _).2, no_reserved _ fun k hk hr => ?_⟩
  show (0#20 ++ harm ++ 0#8 ++ vel).getLsbD k = false
  rcases hr with hr | hr
  · rw [BitVec.getLsbD_append, if_neg (by omega), BitVec.getLsbD_append, if_pos (by omega), BitVec.getLsbD_zero]
  · rw [BitVec.getLsbD_append, if_neg (by omega), BitVec.getLsbD_append, if_neg (by omega),
      zeros_above harm _ (by omega)]

theorem off (ch : ChanIdx) (vel : Velocity) : Statement (.off ch vel) :=
  ⟨(header _).1, (header _).2, no_reserved _ fun k _ hr => zeros_above (n := 44) vel k hr.1⟩

theorem update (ch : ChanIdx) : Statement (.update ch) :=
  ⟨(header _).1, (header _).2, no_reserved _ fun _ _ _ => BitVec.getLsbD_zero⟩

theorem request (ch : ChanIdx) : Statement (.request ch) :=
  ⟨(header _).1, (header _).2, no_reserved _ fun _ _ _ => BitVec.getLsbD_zero⟩

theorem fill (ch : ChanIdx) : Statement (.fill ch) :=
  ⟨(header _).1, (header _).2, no_reserved _ fun _ _ _ => BitVec.getLsbD_zero⟩

theorem submit (ch : ChanIdx) (buf : Slot) : Statement (.submit ch buf) :=
  ⟨(header _).1, (header _).2, no_reserved _ fun k _ hr => zeros_above (n := 51) buf k hr.1⟩

theorem set (ch : ChanIdx) (period : Period) (amp : Sample) (inv : Bool) : Statement (.set ch period amp inv) := by
  refine ⟨(header _).1, (header _).2, no_reserved _ fun k hk hr => ?_⟩
  obtain ⟨h48, h51⟩ : 48 ≤ k ∧ k < 51 := hr
  show (BitVec.ofBool inv ++ 0#3 ++ amp ++ period).getLsbD k = false
  rw [BitVec.getLsbD_append, if_neg (by omega), BitVec.getLsbD_append, if_neg (by omega), BitVec.getLsbD_append,
    if_pos (by omega), BitVec.getLsbD_zero]

theorem cal (ch : ChanIdx) : Statement (.cal ch) :=
  ⟨(header _).1, (header _).2, no_reserved _ fun _ _ _ => BitVec.getLsbD_zero⟩

theorem read (ch : ChanIdx) (reg : BitVec 8) : Statement (.read ch reg) :=
  ⟨(header _).1, (header _).2, no_reserved _ fun k _ hr => zeros_above (n := 44) reg k hr.1⟩

theorem rdbuf (ch : ChanIdx) (buf : Slot) (index : BitVec 32) : Statement (.rdbuf ch buf index) := by
  refine ⟨(header _).1, (header _).2, no_reserved _ fun k hk hr => ?_⟩
  obtain ⟨h33, -⟩ : 33 ≤ k ∧ k < 52 := hr
  show (0#19 ++ buf ++ index).getLsbD k = false
  rw [BitVec.getLsbD_append, if_neg (by omega), zeros_above buf _ (by omega)]

end Sys2Proof.Laws.EncodedFields
end

