-- ==== Sys2Proof/Tests/Slice0.lean ====
section
/-! SUPPORT. The model's own tests. Expected values come from 95_test_vectors.md (named at each test) or are written out from
the encoding of 30_encoding.md R91. Below them, for each obligation with hypotheses, a witness that its hypotheses are met
together. -/

namespace Sys2Proof.Tests

open Sys2Proof.Machine

/-! ## Decoding: the words of 95_test_vectors.md 2.1 and 30_encoding.md R99 -/

theorem test_decode_on : decode 0x1000000000030040#64 = .ok (.on 0 64 3) := by decide
theorem test_decode_on_channel_2 : decode 0x102000000001007F#64 = .ok (.on 2 127 1) := by decide
theorem test_decode_off : decode 0x2000000000000063#64 = .ok (.off 0 99) := by decide
theorem test_decode_update : decode 0x3000000000000000#64 = .ok (.update 0) := by decide
theorem test_decode_request : decode 0x4000000000000000#64 = .ok (.request 0) := by decide
theorem test_decode_fill : decode 0x5000000000000000#64 = .ok (.fill 0) := by decide
theorem test_decode_submit : decode 0x6000000000000001#64 = .ok (.submit 0 1) := by decide
theorem test_decode_set : decode 0x7008006400000004#64 = .ok (.set 0 4 100 true) := by decide
theorem test_decode_set_all_ones : decode 0x7008FFFFFFFFFFFF#64 = .ok (.set 0 0xFFFFFFFF 0xFFFF true) := by decide
theorem test_decode_cal : decode 0x8000000000000000#64 = .ok (.cal 0) := by decide
theorem test_decode_read : decode 0x9000000000000026#64 = .ok (.read 0 0x26) := by decide
theorem test_decode_rdbuf : decode 0xA000000100000003#64 = .ok (.rdbuf 0 1 3) := by decide

/-- ON on channel 0xA5 with VEL 0x81 and HARM 0x8001, bit by bit from R91: op 0001, channel, 20 zeros, HARM, 8 zeros, VEL. -/
theorem test_decode_on_bits :
    decode 0b0001101001010000000000000000000010000000000000010000000010000001#64 = .ok (.on 0xA5 0x81 0x8001) := by
  decide

/-- RDBUF on channel 1, buffer 1, INDEX 2^31 + 1, bit by bit from R91. -/
theorem test_decode_rdbuf_bits :
    decode 0b1010000000010000000000000000000110000000000000000000000000000001#64 = .ok (.rdbuf 1 1 0x80000001) := by
  decide

theorem test_decode_reserved_opcodes :
    decode 0x0000000000000000#64 = .error .reservedOpcode ∧ decode 0xB000000000000000#64 = .error .reservedOpcode ∧
    decode 0xF000000000000000#64 = .error .reservedOpcode := by decide

theorem test_decode_reserved_bits :
    decode 0x100000000001017F#64 = .error .reservedBit ∧ decode 0x100000010001007F#64 = .error .reservedBit ∧
    decode 0x7001006400000004#64 = .error .reservedBit ∧ decode 0x6000000000000002#64 = .error .reservedBit ∧
    decode 0x4000000000000001#64 = .error .reservedBit ∧ decode 0xA000000200000000#64 = .error .reservedBit := by decide

theorem test_decode_table_word : decodeTableWord 64 0x3000000000000000 = some (.update 0) ∧
    decodeTableWord 64 0 = none := by decide

/-! ## Well-formedness: one ill-formed command for each check, refused (2.1) -/

theorem test_wf_channel : ¬ (Instr.on 1 127 1).WellFormed 1 8 ∧ (Instr.on 0 127 1).WellFormed 1 8 := by decide
theorem test_wf_register : ¬ (Instr.read 0 0x27).WellFormed 1 8 ∧ (Instr.read 0 0x26).WellFormed 1 8 := by decide
theorem test_wf_index : ¬ (Instr.rdbuf 0 0 8).WellFormed 1 8 ∧ (Instr.rdbuf 0 0 7).WellFormed 1 8 := by decide

/-! ## Small states -/

/-- The state an outcome goes on with. -/
def nextOf : Host.Outcome State Fault Refusal → Option State
  | .next t => some t
  | .fault _ => none
  | .refused _ => none

/-- A decidable fact of the next state, found by evaluating it. -/
theorem met {o : Host.Outcome State Fault Refusal} {p : State → Prop} [DecidablePred p]
    (h : (nextOf o).any (fun t => decide (p t)) = true) : ∃ t, o = .next t ∧ p t := by
  cases o with
  | next t => exact ⟨t, rfl, of_decide_eq_true h⟩
  | fault _ => cases h
  | refused _ => cases h

/-- A block of one channel, with buffers of n samples. -/
def oneChan (n : Nat) (c : Chan) : State :=
  { State.powerOn { block := { Config.bench.block with bufLen := n }, chans := [] } with chans := [c] }

/-- Configuration E with a meter, at reset. -/
def chanE : Chan := Chan.powerOn ChanCfg.configE

/-- Configuration E without a meter, at reset. -/
def chanN : Chan := Chan.powerOn { ChanCfg.configE with hasMeter := false }

/-- A note at VEL 64, HARM 3 in state e, its deadline at d (V-E2). -/
def noteIn (e : EnvState) (d : Instant) (c : Chan) : Chan :=
  { c with envState := e, envVel := 64, envHarm := 3, dlValid := true, dl := d }

/-- A no-note state with its deadline at d. -/
def meterIn (e : EnvState) (d : Instant) : Chan :=
  { chanE with envState := e, dlValid := true, dl := d, capie := decide (e = .sampleFrequency) }

/-- SampleFrequency with a capture pending. -/
def sampling (e : Bool) (m : Period) : Chan :=
  { meterIn .sampleFrequency 420 with meter := { capf := true, merr := e, mval := m } }

/-- A completion of descriptor 0 waits for its REQUEST (the end of V-P2). -/
def completed : Chan := { chanE with tcf := true, engPtr := 1, engBuf := 1 }

/-- After that REQUEST: buffer 0 is handed out, its fill outstanding (the end of V-P3), with targets (5, 100, 0). -/
def handedOut : Chan :=
  { chanE with
    engPtr := 1, engBuf := 1, desc0 := { valid := false, buf := 0 }, curBuf := 1, active := 1, nextValid := false
    tgtPeriod := 5, tgtAmp := 100, frValid := true, frPeriod := 5, frAmp := 100 }

/-- Buffer 0 filled, not yet submitted. -/
def filled : Chan := { handedOut with frValid := false }

/-- The underrun of P4 step 6, with buffer 0 filled: the engine paused at descriptor 0. -/
def underrun : Chan :=
  { filled with engPtr := 0, engRun := false, engBeat := 4, doneIdx := 1, desc1 := { valid := false, buf := 1 } }

/-- Channel 0 of a state. -/
def chan0 (t : State) : Chan := (t.chans[0]?).getD chanE

/-- A response `{OK, 1, v}` and `{OK, 0, v}`. -/
def some1 (v : BitVec 64) : Response := { sts := .ok, isSome := true, val := v }
def none0 (v : BitVec 64) : Response := { sts := .ok, isSome := false, val := v }
/-- A refusal `{sts, 0, 0}`. -/
def refuse (k : Status) : Response := { sts := k, isSome := false, val := 0 }

/-! ## Envelope (2.4) -/

/-- V-E2. -/
theorem test_on : ∃ t, exec (.on 0 64 3) (oneChan 8 chanE) = .next t ∧
    (t.rsp = some1 200 ∧ (chan0 t).envState = .attack ∧ (chan0 t).tgtPeriod = 333 ∧ (chan0 t).tgtAmp = 503) :=
  met (by decide)

/-- V-E14: the deadline wraps. -/
theorem test_on_wraps :
    ∃ t, exec (.on 0 127 1)
      { oneChan 8 { chanE with cfg := { ChanCfg.configE with attackTime := 10 } } with now := 0xFFFFFFFFFFFFFFFA } =
        .next t ∧ (t.rsp = some1 4 ∧ (chan0 t).dl = 4) :=
  met (by decide)

/-- V-E4: VEL 99 is ignored. -/
theorem test_off : ∃ t, exec (.off 0 99) { oneChan 8 (noteIn .attack 200 chanE) with now := 10 } = .next t ∧
    (t.rsp = some1 30 ∧ (chan0 t).envState = .release ∧ (chan0 t).tgtPeriod = 333 ∧ (chan0 t).tgtAmp = 151 ∧
      (chan0 t).tgtInv = true ∧ (chan0 t).envVel = 64) :=
  met (by decide)

/-- V-E13: a late UPDATE makes one transition. -/
theorem test_update_late : ∃ t, exec (.update 0) { oneChan 8 (noteIn .attack 200 chanE) with now := 1000 } = .next t ∧
    (t.rsp = none0 0 ∧ (chan0 t).envState = .sustain ∧ (chan0 t).dlValid = false ∧ (chan0 t).dl = 200) :=
  met (by decide)

/-- V-E16: the new deadline counts from the prior one. -/
theorem test_update_release : ∃ t, exec (.update 0) { oneChan 8 (noteIn .release 270 chanE) with now := 275 } = .next t ∧
    (t.rsp = some1 320 ∧ (chan0 t).envState = .waitStabilize ∧ (chan0 t).envVel = 0 ∧ (chan0 t).envHarm = 1 ∧
      (chan0 t).tgtPeriod = 1000 ∧ (chan0 t).tgtAmp = 0) :=
  met (by decide)

/-- V-E15. -/
theorem test_apply_velocity :
    [0, 1, 63, 64, 126, 127, 128, 255].map (applyVelocity 1000) = [0, 7, 496, 503, 992, 1000, 1000, 1000] ∧
    applyVelocity 65535 126 = 65018 ∧ applyVelocity 65535 1 = 516 ∧ applyVelocity 126 1 = 0 := by decide

/-! ## Pipeline (2.2, P2, P4) -/

/-- V-P3. -/
theorem test_request : ∃ t, exec (.request 0) (oneChan 8 completed) = .next t ∧
    (t.rsp = some1 0 ∧ (chan0 t).tcf = false ∧ (chan0 t).desc0 = { valid := false, buf := 0 } ∧ (chan0 t).curBuf = 1 ∧
      (chan0 t).active = 1 ∧ (chan0 t).nextValid = false ∧ (chan0 t).frValid = true ∧ (chan0 t).frPeriod = 1000) :=
  met (by decide)

/-- P4 step 6: at an underrun nothing is handed out. -/
theorem test_request_underrun :
    ∃ t, exec (.request 0)
      (oneChan 4 { underrun with tcf := true, desc1 := { valid := true, buf := 1 } }) = .next t ∧
    (t.rsp = none0 0 ∧ (chan0 t).tcf = false ∧ (chan0 t).desc1 = { valid := false, buf := 1 } ∧
      (chan0 t).frValid = false) :=
  met (by decide)

/-- V-P7. -/
theorem test_submit : ∃ t, exec (.submit 0 0) (oneChan 8 filled) = .next t ∧
    (t.rsp = none0 0 ∧ (chan0 t).desc0 = { valid := true, buf := 0 } ∧ (chan0 t).phase = 3 ∧
      (chan0 t).nextValid = true ∧ (chan0 t).engBuf = 1) :=
  met (by decide)

/-- P4 step 7: the paused engine resumes. -/
theorem test_submit_resumes : ∃ t, exec (.submit 0 0) (oneChan 4 underrun) = .next t ∧
    ((chan0 t).engRun = true ∧ (chan0 t).engBuf = 0 ∧ (chan0 t).engBeat = 0) :=
  met (by decide)

/-- V-P9, V-P10. -/
theorem test_set_zero : ∃ t, exec (.set 0 0 5 false) (oneChan 8 chanE) = .next t ∧
    (t.rsp = refuse .precond ∧ chErrVal (chan0 t).chErr = 2 ∧ (chan0 t).tgtPeriod = 1000) :=
  met (by decide)
theorem test_set : ∃ t, exec (.set 0 7 9 true) (oneChan 8 chanE) = .next t ∧
    (t.rsp = none0 0 ∧ (chan0 t).tgtPeriod = 7 ∧ (chan0 t).tgtAmp = 9 ∧ (chan0 t).tgtInv = true ∧
      (chan0 t).frPeriod = 0) :=
  met (by decide)

/-- V-P15: the phase advance. -/
theorem test_advance_phase : advancePhase 8 3 4 5 = 3 ∧ advancePhase 8 3 4 1 = 0 := by decide

/-- V-P2, its last beat. -/
theorem test_beat_completes : ∃ t, step { oneChan 8 { chanE with engBeat := 7 } with pending := [.beat 0] } = .next t ∧
    ((chan0 t).tcf = true ∧ (chan0 t).doneIdx = 0 ∧ (chan0 t).engPtr = 1 ∧ (chan0 t).engBuf = 1 ∧
      (chan0 t).engBeat = 0 ∧ (chan0 t).out = [0] ∧ t.pending = []) :=
  met (by decide)

/-- V-P12, its last beat: MISSED. -/
theorem test_beat_missed :
    ∃ t, step { oneChan 3 { completed with engBeat := 2 } with pending := [.beat 0] } = .next t ∧
    (chErrVal (chan0 t).chErr = 4 ∧ (chan0 t).doneIdx = 1 ∧ (chan0 t).engPtr = 0 ∧ (chan0 t).engBuf = 0 ∧
      (chan0 t).engRun = true) :=
  met (by decide)

/-! ## Synthesis (2.3, P2) -/

theorem test_synth :
    (List.range 8).map (synthSample 4 100 false 0 1) = [0, 0, 0, 100, 0, 0, 0, 100] ∧
    (List.range 8).map (synthSample 4 100 true 0 1) = [100, 100, 100, 0, 100, 100, 100, 0] ∧
    (List.range 8).map (synthSample 10 100 false 0 3) = [0, 0, 100, 100, 0, 0, 100, 0] ∧
    (List.range 8).map (synthSample 7 9 false 5 2) = [9, 0, 0, 9, 9, 0, 0, 9] ∧
    (List.range 4).map (synthSample 3 5 false 7 1) = [0, 5, 0, 0] ∧
    (List.range 3).map (synthSample 4294967295 65535 false 4294967294 1) = [65535, 0, 0] := by decide

/-- P2 step 4. -/
theorem test_fill : ∃ t, exec (.fill 0) (oneChan 8 handedOut) = .next t ∧
    (t.rsp = some1 0 ∧ (chan0 t).frValid = false ∧ (chan0 t).mem = [(3, 100), (4, 100)]) :=
  met (by decide)

/-- FILL without a request. -/
theorem test_fill_refused : ∃ t, exec (.fill 0) (oneChan 8 chanE) = .next t ∧
    (t.rsp = refuse .protocol ∧ chErrVal (chan0 t).chErr = 1) :=
  met (by decide)

/-! ## Calibration (2.5, P3) -/

theorem test_blend :
    blend 1000 1050 = 1005 ∧ blend 1000 1005 = 1001 ∧ blend 1000 1004 = 1000 ∧ blend 15 16 = 15 ∧
    blend 4294967295 3865470566 = 4252017622 := by decide

theorem test_outlier :
    isOutlier 1000 1100 = false ∧ isOutlier 1000 1101 = true ∧ isOutlier 1000 899 = true ∧ isOutlier 1 0 = true ∧
    isOutlier 4294967295 3865470566 = false ∧ isOutlier 4294967295 3865470565 = true := by decide

/-- P3 steps 8 and 10. -/
theorem test_cal : ∃ t, exec (.cal 0) (oneChan 8 (sampling false 1050)) = .next t ∧
    (t.rsp = some1 1005 ∧ (chan0 t).cfgPeriod = 1005 ∧ (chan0 t).meter.capf = false ∧ (chan0 t).tgtPeriod = 1000) :=
  met (by decide)
theorem test_cal_outlier : ∃ t, exec (.cal 0) (oneChan 8 (sampling false 2000)) = .next t ∧
    (t.rsp = none0 2 ∧ (chan0 t).cfgPeriod = 1000 ∧ (chan0 t).meter.capf = false) :=
  met (by decide)

/-! ## Access (2.6, 2.1) -/

/-- DESC1 after reset. -/
theorem test_read : ∃ t, exec (.read 0 0x18) (oneChan 8 chanE) = .next t ∧ t.rsp = some1 3 := met (by decide)
theorem test_read_unassigned : ∃ t, exec (.read 0 0x27) (oneChan 8 chanE) = .next t ∧
    (t.rsp = refuse .illegal ∧ t.glbErr = true) :=
  met (by decide)

/-- The last sample of buffer 1, and the index past it. -/
theorem test_rdbuf : ∃ t, exec (.rdbuf 0 1 7) (oneChan 8 { chanE with mem := [(15, 9)] }) = .next t ∧ t.rsp = some1 9 :=
  met (by decide)
theorem test_rdbuf_past_end : ∃ t, exec (.rdbuf 0 0 8) (oneChan 8 chanE) = .next t ∧
    (t.rsp = refuse .illegal ∧ t.glbErr = true) :=
  met (by decide)

/-- The byte lanes of an output write (20_memory.md R72). -/
theorem test_out_lanes : outLanes .little 16 0x1234 = [(16, 0x34), (17, 0x12)] ∧
    outLanes .big 16 0x1234 = [(16, 0x12), (17, 0x34)] := by decide

/-! ## Interrupt levels (2.7) -/

theorem test_irq : tcIrq chanE = false ∧ tcIrq completed = true ∧ capIrq (sampling false 1050) = true ∧
    capIrq { meterIn .waitStabilize 320 with meter := { capf := true, merr := false, mval := 1 } } = false := by decide

/-! ## The step -/

/-- The placed word is the one that runs (V-P1). -/
theorem test_placed_word : ∃ t, step (State.reset.withFetchWord 64 0x4000000000000000) = .next t ∧
    (t.rsp = none0 0 ∧ t.pending = []) :=
  met (by decide)

/-- A word that is no command. -/
theorem test_placed_illegal : ∃ t, step (State.reset.withFetchWord 64 0) = .next t ∧
    (t.rsp = refuse .illegal ∧ t.glbErr = true) :=
  met (by decide)

/-! ## Witnesses: for each obligation with hypotheses, a state and operands that meet all of them, clause by clause -/

/-- A one-channel block's channel 0 is its channel. -/
theorem chan_here (n : Nat) (c : Chan) : (oneChan n c).chans[(0 : ChanIdx).toNat]? = some c := rfl

/-- Well-formed configurations: the premise of InvariantsHoldAtReset, PlacedWordRunsItsCommand and every statement about a
step of a well-formed block. -/
theorem witness_valid : (oneChan 8 chanE).config.Valid ∧ (oneChan 1 chanE).config.Valid ∧ Config.bench.Valid := by decide

theorem witness_DecodedWordIsItsEncoding :
    decode 0x1000000000030040#64 = .ok (.on 0 64 3) ∧ encode (.on 0 64 3) = 0x1000000000030040#64 := by decide

theorem witness_ReservedOpcodeIsIllegal :
    (opField 0x0010000000000001#64).toNat = 0x0 ∧ 0xB ≤ (opField 0xB000000000000000#64).toNat ∧
    0xB ≤ (opField 0xF000000000000000#64).toNat := by decide

/-- One word of each row, its lowest reserved bit set. -/
theorem witness_ReservedBitIsIllegal :
    (opField 0x1000000000000100#64 = 0x1 ∧ 0x1000000000000100#64 &&& 0x000FFFFF0000FF00#64 ≠ 0) ∧
    (opField 0x2000000000000100#64 = 0x2 ∧ 0x2000000000000100#64 &&& 0x000FFFFFFFFFFF00#64 ≠ 0) ∧
    (opField 0x3000000000000001#64 = 0x3 ∧ 0x3000000000000001#64 &&& 0x000FFFFFFFFFFFFF#64 ≠ 0) ∧
    (opField 0x4000000000000001#64 = 0x4 ∧ 0x4000000000000001#64 &&& 0x000FFFFFFFFFFFFF#64 ≠ 0) ∧
    (opField 0x5000000000000001#64 = 0x5 ∧ 0x5000000000000001#64 &&& 0x000FFFFFFFFFFFFF#64 ≠ 0) ∧
    (opField 0x6000000000000002#64 = 0x6 ∧ 0x6000000000000002#64 &&& 0x000FFFFFFFFFFFFE#64 ≠ 0) ∧
    (opField 0x7001000000000000#64 = 0x7 ∧ 0x7001000000000000#64 &&& 0x0007000000000000#64 ≠ 0) ∧
    (opField 0x8000000000000001#64 = 0x8 ∧ 0x8000000000000001#64 &&& 0x000FFFFFFFFFFFFF#64 ≠ 0) ∧
    (opField 0x9000000000000100#64 = 0x9 ∧ 0x9000000000000100#64 &&& 0x000FFFFFFFFFFF00#64 ≠ 0) ∧
    (opField 0xA000000200000000#64 = 0xA ∧ 0xA000000200000000#64 &&& 0x000FFFFE00000000#64 ≠ 0) := by decide

theorem witness_MissingChannelRegisterOrSampleIsIllegal :
    (oneChan 8 chanE).chans.length ≤ (Instr.update 1).ch.toNat ∧ 0x27 ≤ (0x27#8).toNat ∧
    (oneChan 8 chanE).block.bufLen ≤ (8#32).toNat ∧ ¬ (Instr.update 1).WellFormed 1 8 := by decide

theorem witness_StepRunsTheDecodedCommand :
    let s := { oneChan 8 chanE with pending := [.command 0x1000000000030040#64, .reset] }
    s.config.Valid ∧ s.pending = .command 0x1000000000030040#64 :: [.reset] ∧
      decode 0x1000000000030040#64 = .ok (.on 0 64 3) := by decide

/-- No channel, no sample, a period of 0, a spacing of 0. -/
theorem witness_StepRefusesIllFormedConfiguration :
    { oneChan 8 chanE with chans := [] }.chans = [] ∧ (oneChan 0 chanE).block.bufLen = 0 ∧
    (∃ c ∈ (oneChan 8 { chanE with cfg := { ChanCfg.configE with nominalPeriod := 0 } }).chans,
      c.cfg.nominalPeriod = 0) ∧
    (∃ c ∈ (oneChan 8 { chanE with cfg := { ChanCfg.configE with spacing := 0 } }).chans, c.cfg.spacing = 0) := by
  decide

theorem witness_TimeAndCaptureSteps :
    let s := { oneChan 8 chanE with pending := [.time 7] }
    let u := { oneChan 8 chanE with pending := [.capture 0 true 7] }
    s.config.Valid ∧ s.pending = .time 7 :: [] ∧ u.config.Valid ∧ u.pending = .capture 0 true 7 :: [] ∧
      u.chans[(0 : ChanIdx).toNat]? = some chanE ∧ chanE.cfg.hasMeter = true := by decide

theorem witness_ResetStepLeavesTheResetState :
    let s := { oneChan 8 handedOut with pending := [.reset] }
    s.config.Valid ∧ s.pending = .reset :: [] := by decide

/-- Each clause: harmonic 0; a quotient of 0; a note in Attack and Sustain; the four states ON enters Attack from, at the
largest harmonic that is accepted. -/
theorem witness_OnFollowsItsRule :
    chanE.cfgPeriod.toNat / (1001#16).toNat = 0 ∧ (0#16) = 0 ∧
    ((1000#16) ≠ 0 ∧ chanE.cfgPeriod.toNat / (1000#16).toNat ≠ 0) ∧
    (noteIn .attack 200 chanE).envState = .attack ∧ (noteIn .sustain 200 chanE).envState = .sustain ∧
    chanE.envState = .off ∧ (noteIn .release 200 chanE).envState = .release ∧
    (meterIn .waitStabilize 320).envState = .waitStabilize ∧
    (meterIn .sampleFrequency 420).envState = .sampleFrequency := by decide

theorem witness_OffFollowsItsRule :
    (chanE.envState ≠ .attack ∧ chanE.envState ≠ .sustain) ∧
    ((noteIn .attack 200 chanE).envState = .attack ∧ (noteIn .attack 200 chanE).envHarm ≠ 0) ∧
    ((noteIn .sustain 200 chanE).envState = .sustain ∧ (noteIn .sustain 200 chanE).envHarm ≠ 0) := by decide

/-- Each clause, the deadline reached exactly and missed by one. -/
theorem witness_UpdateFollowsItsRule :
    chanE.dlValid = false ∧ (199 < (noteIn .attack 200 chanE).dl.toNat) ∧
    ((noteIn .attack 200 chanE).dlValid = true ∧ (noteIn .attack 200 chanE).dl.toNat ≤ 200 ∧
      (noteIn .attack 200 chanE).envHarm ≠ 0) ∧
    ((noteIn .release 270 chanN).dlValid = true ∧ (noteIn .release 270 chanN).dl.toNat ≤ 270 ∧
      (noteIn .release 270 chanN).envState = .release ∧ (noteIn .release 270 chanN).cfg.hasMeter = false) ∧
    ((noteIn .release 270 chanE).envState = .release ∧ (noteIn .release 270 chanE).cfg.hasMeter = true) ∧
    ((meterIn .waitStabilize 320).dlValid = true ∧ (meterIn .waitStabilize 320).dl.toNat ≤ 320 ∧
      (meterIn .waitStabilize 320).envState = .waitStabilize) ∧
    ((meterIn .sampleFrequency 420).dlValid = true ∧ (meterIn .sampleFrequency 420).dl.toNat ≤ 420 ∧
      (meterIn .sampleFrequency 420).envState = .sampleFrequency) := by decide

theorem witness_ApplyVelocityProperties :
    (127 ≤ (127#8).toNat ∧ 127 ≤ (255#8).toNat) ∧ (126#8).toNat ≤ (127#8).toNat ∧ (127#8).toNat ≤ (128#8).toNat := by
  decide

theorem witness_EnvelopeCommandsFrame :
    (∃ t, exec (.on 0 64 3) (oneChan 8 chanE) = .next t ∧ t.rsp.sts = .ok) ∧
    (∃ t, exec (.on 0 64 0) (oneChan 8 chanE) = .next t ∧ t.rsp.sts = .precond) ∧
    (∃ t, exec (.on 1 64 3) (oneChan 8 chanE) = .next t ∧ t.rsp.sts = .illegal) ∧
    (∃ t, exec (.off 0 64) (oneChan 8 (noteIn .attack 200 chanE)) = .next t ∧ t.rsp.isSome = true) ∧
    (∃ t, exec (.update 0) { oneChan 8 (noteIn .release 270 chanE) with now := 270 } = .next t ∧
      t.rsp.isSome = true) :=
  ⟨met (by decide), met (by decide), met (by decide), met (by decide), met (by decide)⟩

theorem witness_RequestFollowsItsRule :
    chanE.tcf = false ∧ (completed.tcf = true ∧ completed.nextValid = true) ∧
    ({ underrun with tcf := true }.tcf = true ∧ { underrun with tcf := true }.nextValid = false) := by decide

/-- Each ground of refusal; the running engine; the paused one at the submitted descriptor, and at an invalid one. -/
theorem witness_SubmitFollowsItsRule :
    chanE.nextValid = true ∧ handedOut.frValid = true ∧ (1#1) ≠ 1 - filled.curBuf ∧
    (filled.nextValid = false ∧ filled.frValid = false ∧ (0#1) = 1 - filled.curBuf ∧ filled.tgtPeriod ≠ 0 ∧
      filled.engRun = true) ∧
    (underrun.nextValid = false ∧ underrun.frValid = false ∧ (0#1) = 1 - underrun.curBuf ∧ underrun.tgtPeriod ≠ 0 ∧
      underrun.engRun = false ∧ ({ underrun with desc0 := { valid := true, buf := 0 } }.desc underrun.engPtr).valid = true) ∧
    ({ underrun with engPtr := 1 }.engRun = false ∧
      ({ underrun with desc0 := { valid := true, buf := 0 } }.desc 1).valid = false) := by decide

theorem witness_SetFollowsItsRule : (0#32) = 0 ∧ (1#32) ≠ 0 := by decide

/-- The beat before the last; the last one, with the other descriptor valid and not. -/
theorem witness_BeatMovesOneSample :
    let s := { oneChan 8 { chanE with engBeat := 6 } with pending := [.beat 0] }
    s.config.Valid ∧ s.pending = .beat 0 :: [] ∧ { chanE with engBeat := 6 }.engRun = true ∧
    ({ chanE with engBeat := 6 }.engBeat.toNat < s.block.bufLen ∧
      { chanE with engBeat := 6 }.engBeat.toNat + 1 ≠ s.block.bufLen) ∧
    ({ chanE with engBeat := 7 }.engBeat.toNat + 1 = s.block.bufLen ∧ (chanE.desc (1 - chanE.engPtr)).valid = true) ∧
    (filled.desc (1 - filled.engPtr)).valid = false ∧ filled.engRun = true := by decide

theorem witness_PausedTriggerHasNoEffect :
    let s := { oneChan 4 underrun with pending := [.beat 0] }
    s.config.Valid ∧ s.pending = .beat 0 :: [] ∧ s.chans[(0 : ChanIdx).toNat]? = some underrun ∧
      underrun.engRun = false := by decide

theorem witness_PipelineCommandsFrame :
    (∃ t, exec (.request 0) (oneChan 8 completed) = .next t ∧ t.rsp.isSome = true) ∧
    (∃ t, exec (.submit 0 0) (oneChan 8 filled) = .next t ∧ t.rsp.sts = .ok) ∧
    (∃ t, exec (.submit 0 1) (oneChan 8 filled) = .next t ∧ t.rsp.sts = .protocol) ∧
    (∃ t, exec (.set 0 7 9 true) (oneChan 8 chanE) = .next t ∧ t.rsp.sts = .ok) ∧
    (∃ t, exec (.set 0 0 9 true) (oneChan 8 chanE) = .next t ∧ t.rsp.sts = .precond) :=
  ⟨met (by decide), met (by decide), met (by decide), met (by decide), met (by decide)⟩

theorem witness_PhaseBelowTargetAfterSubmit :
    ∃ t, exec (.submit 0 0) (oneChan 8 filled) = .next t ∧ (t.rsp.sts = .ok ∧ t.chans.length = 1) :=
  met (by decide)

theorem witness_PhaseAdvancesAddUpModuloThePeriod : (1#32) ≠ 0 := by decide

theorem witness_SubmitResumesWithTheSubmittedBuffer :
    PipelineInv underrun ∧ underrun.chErr.missed = false ∧ underrun.engRun = false ∧
    ∃ t, exec (.submit 0 0) (oneChan 4 underrun) = .next t ∧ (t.rsp.sts = .ok ∧ t.chans.length = 1) :=
  ⟨by decide, by decide, by decide, met (by decide)⟩

theorem witness_RequestNeverHandsOutAPlayingBuffer :
    PipelineInv completed ∧ completed.chErr.missed = false ∧
    ∃ t, exec (.request 0) (oneChan 8 completed) = .next t ∧ (t.rsp.isSome = true ∧ t.chans.length = 1) :=
  ⟨by decide, by decide, met (by decide)⟩

theorem witness_PipelineInvGivesItsClauses :
    (PipelineInv chanE ∧ chanE.chErr.missed = false) ∧ (PipelineInv handedOut ∧ handedOut.chErr.missed = false) :=
  ⟨⟨by decide, by decide⟩, by decide, by decide⟩

theorem witness_FillFollowsItsRule :
    chanE.frValid = false ∧ handedOut.frValid = true ∧ handedOut.frPeriod ≠ 0 ∧ handedOut.mem.wf := by decide

theorem witness_FillFrame : ∃ t, exec (.fill 0) (oneChan 8 handedOut) = .next t ∧ t.rsp.sts = .ok := met (by decide)

theorem witness_SynthesisContinuesAcrossBuffers : (1#32) ≠ 0 := by decide

theorem witness_SynthesisDutyOverOnePeriod : (1#32) ≠ 0 ∧ (1#16) ≠ 0 := by decide

/-- Each clause: no meter; not in SampleFrequency; no capture; an error; exactly 10% away; one more. -/
theorem witness_CalFollowsItsRule :
    chanN.cfg.hasMeter = false ∧ chanE.envState ≠ .sampleFrequency ∧
    (chanE.cfg.hasMeter = true ∧ (meterIn .sampleFrequency 420).envState = .sampleFrequency) ∧
    (meterIn .sampleFrequency 420).meter.capf = false ∧ (sampling true 1050).meter.merr = true ∧
    ((sampling false 1100).meter.capf = true ∧ (sampling false 1100).meter.merr = false ∧
      10 * (((1100#32).toNat : Int) - (sampling false 1100).cfgPeriod.toNat).natAbs ≤
        (sampling false 1100).cfgPeriod.toNat) ∧
    10 * (((1101#32).toNat : Int) - (sampling false 1101).cfgPeriod.toNat).natAbs >
      (sampling false 1101).cfgPeriod.toNat := by decide

theorem witness_CalFrame : ∃ t, exec (.cal 0) (oneChan 8 (sampling false 1050)) = .next t ∧ t.rsp.isSome = true :=
  met (by decide)

/-- At the ends of the 10% band. -/
theorem witness_OutlierTestIsTheTruncatingTest :
    isOutlier 1000 1100 = false ∧ isOutlier 1000 1101 = true ∧ isOutlier 1000 900 = false ∧
    isOutlier 1000 899 = true := by decide

theorem witness_BlendIsExactAndFits : isOutlier 1 1 = false ∧ 1 ≤ (1#32).toNat := by decide

/-- At the ends of the dead band. -/
theorem witness_BlendConverges :
    (blend 1046 1050 = 1046 ∧ (1050#32).toNat ≤ (1046#32).toNat + 4) ∧ (1045#32).toNat + 4 < (1050#32).toNat ∧
    (1000#32).toNat + 5 < (1006#32).toNat := by decide

/-- The first and the last register of the map. -/
theorem witness_ReadReturnsTheRegister :
    (0x00#8).toNat = 0x00 ∧ (0x26#8).toNat = 0x26 ∧ 0x27 ≤ (0x27#8).toNat ∧ regOfIndex 0x26 = some .GLB_ERR ∧
    regOfIndex 0x27 = none := by decide

theorem witness_RdbufReturnsTheSample :
    (7#32).toNat < (oneChan 8 chanE).block.bufLen ∧ (oneChan 8 chanE).block.bufLen ≤ (8#32).toNat := by decide

theorem witness_AccessCommandsFrame :
    (∃ t, exec (.read 0 0x18) (oneChan 8 chanE) = .next t ∧ t.rsp.sts = .ok) ∧
    (∃ t, exec (.rdbuf 0 1 7) (oneChan 8 chanE) = .next t ∧ t.rsp.sts = .ok) :=
  ⟨met (by decide), met (by decide)⟩

/-- A command refused in each of the three ways. -/
theorem witness_RefusedCommandChangesOnlyItsBit :
    (∃ t, exec (.read 0 0x27) (oneChan 8 chanE) = .next t ∧ t.rsp.sts = .illegal) ∧
    (∃ t, exec (.fill 0) (oneChan 8 chanE) = .next t ∧ t.rsp.sts = .protocol) ∧
    (∃ t, exec (.set 0 0 0 false) (oneChan 8 chanE) = .next t ∧ t.rsp.sts = .precond) :=
  ⟨met (by decide), met (by decide), met (by decide)⟩

theorem witness_FaultBitsAreSticky :
    let c := { chanE with chErr := { protocol := true, precond := true, missed := true } }
    let s := { oneChan 8 c with glbErr := true, pending := [.beat 0] }
    s.pending.head? ≠ some .reset ∧ s.glbErr = true ∧ s.chans[0]? = some c ∧ ∃ t, step s = .next t ∧ t.chans.length = 1 :=
  ⟨by decide, by decide, by decide, met (by decide)⟩

theorem witness_TcIrqRisesAtCompletionAndFallsAtRequestOrReset :
    (let s := { oneChan 8 completed with pending := [.command 0x4000000000000000#64] }
     s.chans[0]? = some completed ∧ tcIrq completed = true ∧ ∃ t, step s = .next t ∧ t.chans.map tcIrq = [false]) ∧
    (let s := { oneChan 1 chanE with pending := [.beat 0] }
     s.chans[0]? = some chanE ∧ tcIrq chanE = false ∧ ∃ t, step s = .next t ∧ t.chans.map tcIrq = [true]) :=
  ⟨⟨by decide, by decide, met (by decide)⟩, by decide, by decide, met (by decide)⟩

theorem witness_CapIrqIsPendingCaptureInSampleFrequency :
    EnvelopeInv (sampling false 1050) ∧ (sampling false 1050).meter.capf = true ∧
    ∃ t, exec (.cal 0) (oneChan 8 (sampling false 1050)) = .next t ∧ t.chans.map capIrq = [false] :=
  ⟨by decide, by decide, met (by decide)⟩

/-- The unreachable states, each clause. -/
theorem witness_UnreachableDivisorsAndBeatsStop :
    let z := { noteIn .attack 200 chanE with envHarm := 0 }
    (z.envState = .attack ∧ z.envHarm = 0 ∧ z.dlValid = true ∧ z.dl.toNat ≤ 200) ∧
    ({ filled with tgtPeriod := 0 }.nextValid = false ∧ { filled with tgtPeriod := 0 }.frValid = false ∧
      (0#1) = 1 - { filled with tgtPeriod := 0 }.curBuf ∧ { filled with tgtPeriod := 0 }.tgtPeriod = 0) ∧
    ({ handedOut with frPeriod := 0 }.frValid = true ∧ { handedOut with frPeriod := 0 }.frPeriod = 0) ∧
    ({ chanE with engBeat := 8 }.engRun = true ∧ 8 ≤ { chanE with engBeat := 8 }.engBeat.toNat) := by decide

/-- Two blocks that differ in another channel only. -/
theorem witness_CommandReadsOnlyItsChannel :
    let s := { oneChan 8 chanE with chans := [chanE, chanE] }
    let u := { oneChan 8 chanE with chans := [chanE, handedOut] }
    s.chans[(Instr.on 0 64 3).ch.toNat]? = u.chans[(Instr.on 0 64 3).ch.toNat]? ∧ s.block = u.block ∧ s.now = u.now ∧
      s.glbErr = u.glbErr ∧ s ≠ u ∧ ∃ t, exec (.on 0 64 3) s = .next t ∧ t.rsp.isSome = true :=
  ⟨by decide, by decide, by decide, by decide, by decide, met (by decide)⟩

/-- Every kind of agent step, each of which exists here. -/
theorem witness_StepCompletesUnderTheInvariants :
    (oneChan 8 handedOut).config.Valid ∧ (oneChan 8 handedOut).Inv ∧
    eventExists (oneChan 8 handedOut) (.beat 0) ∧ eventExists (oneChan 8 handedOut) (.time 3) :=
  ⟨by decide, List.forall_mem_singleton.2 ⟨by decide, by decide, by decide, by decide, by decide⟩, by decide, trivial⟩

/-- The five invariants together, at a state whose step takes a beat. -/
theorem witness_StepKeepsInvariants :
    let s := { oneChan 8 handedOut with pending := [.beat 0] }
    (∀ c ∈ s.chans, EnvelopeInv c) ∧ (∀ c ∈ s.chans, PeriodInv c) ∧ (∀ c ∈ s.chans, BeatInv s.block.bufLen c) ∧
    (∀ c ∈ s.chans, MemInv s.block.bufLen c) ∧ (∀ c ∈ s.chans, PipelineInv c) ∧
    ∃ t, step s = .next t ∧ (t.chans.length = 1 ∧ t.config = s.config) :=
  ⟨by decide, by decide, by decide, by decide, by decide, met (by decide)⟩

/-- State.reset, and a block of other buffers, are where a run may start. -/
theorem witness_start : IsStart State.reset ∧ IsStart (oneChan 8 chanE) := by decide

/-- A run of two steps, a time step and then a beat, which is enabled: the hypotheses of the statements about runs. Its
channel keeps its target period, and no step of it is RESET. -/
theorem witness_run :
    ∃ s : Nat → State, IsRun (some 2) s (fun n => if n = 0 then .time 5 else .beat 0) ∧ hasState (some 2) 2 ∧
      ∀ i, i ≤ 2 → ∃ c, (s i).chans[0]? = some c ∧ c.tgtPeriod = 1000 := by
  obtain ⟨t, ht, e0, p0⟩ :
      ∃ t, agentStep (.time 5) (oneChan 8 chanE) = .next t ∧
        (t = { oneChan 8 chanE with now := 5 } ∧ t.chans.length = 1) := met (by decide)
  subst e0
  obtain ⟨u, hu, e1⟩ :
      ∃ u, agentStep (.beat 0) { oneChan 8 chanE with now := 5 } = .next u ∧
        u = { oneChan 8 { chanE with engBeat := 1, out := [0] } with now := 5 } := met (by decide)
  subst e1
  refine ⟨fun n => if n = 0 then oneChan 8 chanE else if n = 1 then { oneChan 8 chanE with now := 5 } else
    { oneChan 8 { chanE with engBeat := 1, out := [0] } with now := 5 }, ⟨witness_start.2, ?_⟩, by decide, ?_⟩
  · intro n h
    have h : n < 2 := h 2 rfl
    match n, h with
    | 0, _ => exact ⟨trivial, ht⟩
    | 1, _ => exact ⟨⟨chanE, rfl, rfl⟩, hu⟩
  · intro i h
    match i, h with
    | 0, _ => exact ⟨chanE, rfl, rfl⟩
    | 1, _ => exact ⟨chanE, rfl, rfl⟩
    | 2, _ => exact ⟨_, rfl, rfl⟩

/-- A step that does each: a beat, a calibration, a fill. -/
theorem witness_WhatChangesOnlyBy :
    (∃ t, step { oneChan 8 chanE with pending := [.beat 0] } = .next t ∧ t.chans.map Chan.out = [[0]]) ∧
    (∃ t, step { oneChan 8 (sampling false 1050) with pending := [.command 0x8000000000000000#64] } = .next t ∧
      t.chans.map Chan.cfgPeriod = [1005]) ∧
    (∃ t, step { oneChan 8 handedOut with pending := [.command 0x5000000000000000#64] } = .next t ∧
      t.chans.map Chan.mem = [[(3, 100), (4, 100)]]) :=
  ⟨met (by decide), met (by decide), met (by decide)⟩

end Sys2Proof.Tests
end

section
/-! PROOFS. Where the model stops: a divisor of 0 (log 11) and a beat outside the buffer (log 12). -/

namespace Sys2Proof.Machine

/-- A command whose rule gives its channel no next state stops the block. -/
theorem onChannel_stop {ch : ChanIdx} {s : State} {rule : Chan → Reply} {c : Chan} {f : Fault}
    (hc : s.chans[ch.toNat]? = some c) (hf : rule c = .stop f) : onChannel ch s rule = .fault f := by
  rw [onChannel_some hc, hf]

/-- Recompute gives no channel where it would divide by a harmonic of 0 (R153, log 11). -/
theorem recompute_of_eq_zero {c : Chan} (h : driveHarm c = 0) : recompute c = none := by
  unfold recompute; rw [if_pos (by rw [h]; rfl)]

/-- OFF in a note state it leaves stops where ENV_HARM is 0: Release drives at ENV_HARM (R153, R156). -/
theorem offRule_stop {now : Instant} {c : Chan} (note : c.envState = .attack ∨ c.envState = .sustain)
    (harm : c.envHarm = 0) : offRule now c = .stop .zeroDivisor := by
  have release : startRelease now c = .stop .zeroDivisor := by
    unfold startRelease
    rw [recompute_of_eq_zero (by exact harm)]
    rfl
  rcases note with h | h <;> simpa only [offRule, h] using release

/-- UPDATE of a channel whose deadline is reached takes the due transition (R157). -/
theorem updateRule_due {now : Instant} {c : Chan} (valid : c.dlValid = true) (reached : c.dl.toNat ≤ now.toNat) :
    updateRule now c = updateDue c := by
  have due : ¬(c.dlValid = false ∨ now < c.dl) := by
    rintro (h | h)
    · exact absurd (valid.symm.trans h) (by decide)
    · exact absurd (BitVec.lt_def.1 h) (Nat.not_lt.2 reached)
  unfold updateRule
  rw [if_neg due]

/-- The transition due in Attack stops where ENV_HARM is 0: Sustain drives at ENV_HARM (R153, R157). -/
theorem updateDue_attack_stop {c : Chan} (attack : c.envState = .attack) (harm : c.envHarm = 0) :
    updateDue c = .stop .zeroDivisor := by
  simp only [updateDue, attack]
  rw [recompute_of_eq_zero (by exact harm)]
  rfl

/-- SUBMIT of the vacated buffer, filled, stops where TGT_PERIOD is 0: the phase is taken modulo it (R112). -/
theorem submitRule_stop {bufLen : Nat} {buf : Slot} {c : Chan} (free : c.nextValid = false) (filled : c.frValid = false)
    (vacated : buf = otherSlot c.curBuf) (period : c.tgtPeriod = 0) :
    submitRule bufLen buf c = .stop .zeroDivisor := by
  unfold submitRule
  rw [if_neg (by simp [free, filled, vacated]), if_pos (by rw [period]; rfl)]

/-- FILL of an outstanding request of period 0 stops: sample times are taken modulo the period (R140, R141). -/
theorem fillRule_stop {bufLen : Nat} {c : Chan} (outstanding : c.frValid = true) (period : c.frPeriod = 0) :
    fillRule bufLen c = .stop .zeroDivisor := by
  unfold fillRule
  rw [if_neg (by simp [outstanding]), if_pos (by rw [period]; rfl)]

/-- A running engine whose beat index is outside the buffer has no sample to move (R73, R122, log 12). -/
theorem beat_none {bufLen : Nat} {c : Chan} (running : c.engRun = true) (outside : bufLen ≤ c.engBeat.toNat) :
    beat bufLen c = none := by
  have noSample : c.memRead bufLen c.engBuf c.engBeat.toNat = none := if_neg (Nat.not_lt.2 outside)
  simp only [beat, running, if_true, beatRunning, noSample]

/-- A trigger event of a channel without a sample to move stops the block (R122, log 12). -/
theorem runBeat_stop {ch : ChanIdx} {s : State} {c : Chan} (hc : s.chans[ch.toNat]? = some c)
    (noBeat : beat s.block.bufLen c = none) : runBeat ch s = .fault .noSuchSample := by
  simp only [runBeat, hc, noBeat]

/-- Settles O46: each rule stops on its divisor of 0, and the beat on its missing sample. -/
theorem unreachableDivisorsAndBeatsStop : Obligations.UnreachableDivisorsAndBeatsStop := by
  intro s ch c hc
  refine ⟨?off, ?update, ?submit, ?fill, ?beat⟩
  case off =>
    intro _ note harm
    exact onChannel_stop hc (offRule_stop note harm)
  case update =>
    intro valid reached attack harm
    exact onChannel_stop hc ((updateRule_due valid reached).trans (updateDue_attack_stop attack harm))
  case submit =>
    intro _ free filled vacated period
    exact onChannel_stop hc (submitRule_stop free filled vacated period)
  case fill =>
    intro outstanding period
    exact onChannel_stop hc (fillRule_stop outstanding period)
  case beat =>
    intro rest config pending running outside
    have next : step s = runBeat ch { s with pending := rest } := by
      rw [step_of_valid config, runPending, pending]; rfl
    exact next.trans (runBeat_stop hc (beat_none running outside))

end Sys2Proof.Machine
end

section
/-! PROOFS. What one step can do to one channel, said once: the move of each command's rule (CommandStep), the move of any
agent (ChanStep), and their inversion from `step s = .next t`. Every invariant of 10_state.md is then a case analysis of a
ChanStep. -/

namespace Sys2Proof.Machine

/-- The rule a command runs on the channel it selects, in state s. -/
def commandRule (s : State) : Instr → Chan → Reply
  | .on _ vel harm => onRule s.now vel harm
  | .off _ _ => offRule s.now
  | .update _ => updateRule s.now
  | .request _ => requestRule
  | .fill _ => fillRule s.block.bufLen
  | .submit _ buf => submitRule s.block.bufLen buf
  | .set _ period amp inv => setRule period amp inv
  | .cal _ => calRule
  | .read _ reg => readRule s.glbErr reg
  | .rdbuf _ buf index => rdbufRule s.block.bufLen buf index

/-- Every command is its rule on its channel (30_encoding.md R97 step 3). -/
theorem exec_eq_onChannel (i : Instr) (s : State) : exec i s = onChannel i.ch s (commandRule s i) := by
  cases i <;> rfl

/-- The deadline that UPDATE waits for is set and reached (42_envelope.md R157). -/
abbrev deadlineReached (now : Instant) (c : Chan) : Prop := c.dlValid = true ∧ ¬ now < c.dl

/-- The registers a transition of the envelope's schedule writes before Recompute (42_envelope.md R154 to R157). -/
inductive EnvelopeEntry (now : Instant) (c : Chan) : Instr → Chan → Prop
  | attack (ch : ChanIdx) (vel : Velocity) (harm : Harmonic) :
      harm.toNat ≠ 0 → c.cfgPeriod.toNat / harm.toNat ≠ 0 → c.envState ≠ .attack → c.envState ≠ .sustain →
      EnvelopeEntry now c (.on ch vel harm) { c with
        capie := if c.envState = .sampleFrequency then false else c.capie
        envState := .attack
        envVel := vel
        envHarm := harm
        dl := now + c.cfg.attackTime
        dlValid := true }
  | release (ch : ChanIdx) (vel : Velocity) : c.envState = .attack ∨ c.envState = .sustain →
      EnvelopeEntry now c (.off ch vel) { c with envState := .release, dl := now + c.cfg.releaseTime, dlValid := true }
  | sustain (ch : ChanIdx) : deadlineReached now c → c.envState = .attack →
      EnvelopeEntry now c (.update ch) { c with envState := .sustain, dlValid := false }
  | waitStabilize (ch : ChanIdx) : deadlineReached now c → c.envState = .release → c.cfg.hasMeter = true →
      EnvelopeEntry now c (.update ch) { c with
        envState := .waitStabilize, envVel := 0, envHarm := 1, dl := c.dl + c.cfg.stabilizeTime }
  | offUnmetered (ch : ChanIdx) : deadlineReached now c → c.envState = .release → c.cfg.hasMeter = false →
      EnvelopeEntry now c (.update ch) { c with envState := .off, envVel := 0, envHarm := 1, dlValid := false }
  | sampleFrequency (ch : ChanIdx) : deadlineReached now c → c.envState = .waitStabilize →
      EnvelopeEntry now c (.update ch) { c with
        envState := .sampleFrequency, dl := c.dl + c.cfg.sampleTime, capie := true }
  | offSampled (ch : ChanIdx) : deadlineReached now c → c.envState = .sampleFrequency →
      EnvelopeEntry now c (.update ch) { c with envState := .off, dlValid := false, capie := false }

/-- The channel after an accepted SUBMIT (40_pipeline.md R112). -/
def submitted (bufLen : Nat) (buf : Slot) (c : Chan) : Chan := resume (queueBuffer bufLen buf c)

/-- What command i, of state s, can make of its channel. -/
inductive CommandStep (s : State) (c : Chan) : Instr → Chan → Prop
  | unchanged (i : Instr) : CommandStep s c i c
  | protocolErr {i : Instr} : commandRule s i c = .refuse .protocol → CommandStep s c i c.setProtocolErr
  | precondErr {i : Instr} : commandRule s i c = .refuse .precond → CommandStep s c i c.setPrecondErr
  | envelope {i : Instr} {x c' : Chan} : EnvelopeEntry s.now c i x → recompute x = some c' → CommandStep s c i c'
  | reclaim (ch : ChanIdx) : c.tcf = true → c.nextValid = false → CommandStep s c (.request ch) (reclaim c)
  | handOut (ch : ChanIdx) : c.tcf = true → c.nextValid = true → CommandStep s c (.request ch) (handOut (reclaim c))
  | submit (ch : ChanIdx) (buf : Slot) : c.nextValid = false → c.frValid = false → buf = otherSlot c.curBuf →
      c.tgtPeriod.toNat ≠ 0 → CommandStep s c (.submit ch buf) (submitted s.block.bufLen buf c)
  | set (ch : ChanIdx) (period : Period) (amp : Sample) (inv : Bool) : period ≠ 0 →
      CommandStep s c (.set ch period amp inv) (c.setTarget period amp inv)
  | fill (ch : ChanIdx) : c.frValid = true → c.frPeriod.toNat ≠ 0 →
      CommandStep s c (.fill ch) { c with
        mem := fillUpTo s.block.bufLen (otherSlot c.curBuf) (requestSample c) c.mem s.block.bufLen
        frValid := false }
  | ack (ch : ChanIdx) : calArmed c = true →
      c.meter.capf = false ∨ c.meter.merr = true ∨ isOutlier c.cfgPeriod c.meter.mval = true →
      CommandStep s c (.cal ch) (meterAck c)
  | blend (ch : ChanIdx) : calArmed c = true → c.meter.capf = true → c.meter.merr = false →
      isOutlier c.cfgPeriod c.meter.mval = false →
      CommandStep s c (.cal ch) { meterAck c with cfgPeriod := blend c.cfgPeriod c.meter.mval }

/-- The sample the engine's next beat moves (40_pipeline.md R122). -/
def nextSample (bufLen : Nat) (c : Chan) : Sample := c.mem.read (sampleAddr bufLen c.engBuf c.engBeat.toNat)

/-- What one step of the block, from state s, can make of its channel n. -/
inductive ChanStep (s : State) (n : Nat) (c : Chan) : Chan → Prop
  | unchanged : ChanStep s n c c
  | command {w : CmdWord} {i : Instr} {c' : Chan} : s.pending.head? = some (.command w) → decode w = .ok i →
      i.ch.toNat = n → CommandStep s c i c' → ChanStep s n c c'
  | transfer {ch : ChanIdx} : s.pending.head? = some (.beat ch) → ch.toNat = n → c.engRun = true →
      c.engBeat.toNat < s.block.bufLen → (c.engBeat + 1).toNat ≠ s.block.bufLen →
      ChanStep s n c (transfer c (nextSample s.block.bufLen c))
  | complete {ch : ChanIdx} : s.pending.head? = some (.beat ch) → ch.toNat = n → c.engRun = true →
      c.engBeat.toNat < s.block.bufLen → (c.engBeat + 1).toNat = s.block.bufLen →
      ChanStep s n c (complete (transfer c (nextSample s.block.bufLen c)))
  | capture {ch : ChanIdx} {e : Bool} {m : Period} : s.pending.head? = some (.capture ch e m) → ch.toNat = n →
      c.cfg.hasMeter = true → ChanStep s n c (meterCapture e m c)
  | reset : s.pending.head? = some .reset → ChanStep s n c (resetChannel c)

/-! ## What each rule can answer -/

theorem replyOr_done {o : Option Chan} {f : Chan → Response} {c' : Chan} {r : Response}
    (h : replyOr o f = .done c' r) : o = some c' := by
  cases o <;> cases h
  rfl

theorem onRule_done {s : State} {ch : ChanIdx} {vel : Velocity} {harm : Harmonic} {c c' : Chan} {r : Response}
    (h : onRule s.now vel harm c = .done c' r) : CommandStep s c (.on ch vel harm) c' := by
  unfold onRule at h
  split at h
  · cases h
  next accepted =>
    obtain ⟨hharm, hperiod⟩ := not_or.1 accepted
    have start (ha : c.envState ≠ .attack) (hs : c.envState ≠ .sustain)
        (h : startAttack s.now vel harm c = .done c' r) : CommandStep s c (.on ch vel harm) c' :=
      .envelope (.attack ch vel harm hharm hperiod ha hs) (replyOr_done h)
    split at h
    case h_1 | h_2 => cases h; exact .unchanged _
    all_goals exact start (by simp [*]) (by simp [*]) h

theorem offRule_done {s : State} {ch : ChanIdx} {vel : Velocity} {c c' : Chan} {r : Response}
    (h : offRule s.now c = .done c' r) : CommandStep s c (.off ch vel) c' := by
  unfold offRule at h
  split at h
  next attack => exact .envelope (.release ch vel (Or.inl attack)) (replyOr_done h)
  next sustain => exact .envelope (.release ch vel (Or.inr sustain)) (replyOr_done h)
  all_goals cases h; exact .unchanged _

theorem updateRule_done {s : State} {ch : ChanIdx} {c c' : Chan} {r : Response}
    (h : updateRule s.now c = .done c' r) : CommandStep s c (.update ch) c' := by
  unfold updateRule updateDue at h
  split at h
  · cases h; exact .unchanged _
  next pastDeadline =>
  have reached : deadlineReached s.now c := by simpa [deadlineReached] using pastDeadline
  split at h
  next attack => exact .envelope (.sustain ch reached attack) (replyOr_done h)
  next release =>
    split at h
    next metered => exact .envelope (.waitStabilize ch reached release metered) (replyOr_done h)
    next unmetered =>
      exact .envelope (.offUnmetered ch reached release (Bool.eq_false_of_not_eq_true unmetered)) (replyOr_done h)
  next wait => exact .envelope (.sampleFrequency ch reached wait) (replyOr_done h)
  next sampling => exact .envelope (.offSampled ch reached sampling) (replyOr_done h)
  all_goals cases h; exact .unchanged _

theorem requestRule_done {s : State} {ch : ChanIdx} {c c' : Chan} {r : Response}
    (h : requestRule c = .done c' r) : CommandStep s c (.request ch) c' := by
  unfold requestRule at h
  split at h
  · cases h; exact .unchanged _
  next waiting =>
    have waiting := Bool.eq_true_of_not_eq_false waiting
    split at h
    next unqueued => cases h; exact .reclaim ch waiting unqueued
    next queued => cases h; exact .handOut ch waiting (Bool.eq_true_of_not_eq_false queued)

/-- An accepted SUBMIT passed its three checks (R112). -/
theorem submitRule_accepted {bufLen : Nat} {buf : Slot} {c c' : Chan} {r : Response}
    (h : submitRule bufLen buf c = .done c' r) :
    c.nextValid = false ∧ c.frValid = false ∧ buf = otherSlot c.curBuf ∧ c.tgtPeriod.toNat ≠ 0 ∧
      c' = submitted bufLen buf c := by
  unfold submitRule at h
  split at h
  · cases h
  next accepted =>
    split at h
    · cases h
    next period =>
      cases h
      simpa only [not_or, Bool.not_eq_true, ne_eq, not_not, and_assoc] using And.intro accepted ⟨period, rfl⟩

theorem submitRule_done {s : State} {ch : ChanIdx} {buf : Slot} {c c' : Chan} {r : Response}
    (h : submitRule s.block.bufLen buf c = .done c' r) : CommandStep s c (.submit ch buf) c' := by
  obtain ⟨unqueued, filled, vacated, period, rfl⟩ := submitRule_accepted h
  exact .submit ch buf unqueued filled vacated period

theorem fillRule_done {s : State} {ch : ChanIdx} {c c' : Chan} {r : Response}
    (h : fillRule s.block.bufLen c = .done c' r) : CommandStep s c (.fill ch) c' := by
  unfold fillRule at h
  split at h
  · cases h
  next outstanding =>
    split at h
    · cases h
    next period => cases h; exact .fill ch (Bool.eq_true_of_not_eq_false outstanding) period

theorem setRule_done {s : State} {ch : ChanIdx} {period : Period} {amp : Sample} {inv : Bool} {c c' : Chan}
    {r : Response} (h : setRule period amp inv c = .done c' r) : CommandStep s c (.set ch period amp inv) c' := by
  unfold setRule at h
  split at h
  · cases h
  next accepted => cases h; exact .set ch period amp inv accepted

theorem calRule_done {s : State} {ch : ChanIdx} {c c' : Chan} {r : Response}
    (h : calRule c = .done c' r) : CommandStep s c (.cal ch) c' := by
  unfold calRule at h
  split at h
  · cases h; exact .unchanged _
  next armed =>
    have armed := Bool.eq_true_of_not_eq_false armed
    split at h
    next unusable => cases h; exact .ack ch armed (unusable.imp_right Or.inl)
    next usable =>
      obtain ⟨pending, sound⟩ := not_or.1 usable
      split at h
      next outlier => cases h; exact .ack ch armed (Or.inr (Or.inr outlier))
      next accepted =>
        cases h
        exact .blend ch armed (Bool.eq_true_of_not_eq_false pending) (Bool.eq_false_of_not_eq_true sound)
          (Bool.eq_false_of_not_eq_true accepted)

theorem readRule_done {s : State} {ch : ChanIdx} {reg : BitVec 8} {c c' : Chan} {r : Response}
    (h : readRule s.glbErr reg c = .done c' r) : CommandStep s c (.read ch reg) c' := by
  unfold readRule at h
  split at h <;> cases h
  exact .unchanged _

theorem rdbufRule_done {s : State} {ch : ChanIdx} {buf : Slot} {index : BitVec 32} {c c' : Chan} {r : Response}
    (h : rdbufRule s.block.bufLen buf index c = .done c' r) : CommandStep s c (.rdbuf ch buf index) c' := by
  unfold rdbufRule at h
  split at h <;> cases h
  exact .unchanged _

/-- A command that responds made one of its moves. -/
theorem commandRule_done {s : State} {i : Instr} {c c' : Chan} {r : Response} (h : commandRule s i c = .done c' r) :
    CommandStep s c i c' := by
  cases i with
  | on => exact onRule_done h
  | off => exact offRule_done h
  | update => exact updateRule_done h
  | request => exact requestRule_done h
  | fill => exact fillRule_done h
  | submit => exact submitRule_done h
  | set => exact setRule_done h
  | cal => exact calRule_done h
  | read => exact readRule_done h
  | rdbuf => exact rdbufRule_done h

/-- A trigger event: no effect while paused, else one sample moved, with the completion after the last one. -/
theorem beat_some {bufLen : Nat} {c c' : Chan} (h : beat bufLen c = some c') :
    c.engRun = false ∧ c' = c ∨
    c.engRun = true ∧ c.engBeat.toNat < bufLen ∧
      ((c.engBeat + 1).toNat = bufLen ∧ c' = complete (transfer c (nextSample bufLen c)) ∨
        (c.engBeat + 1).toNat ≠ bufLen ∧ c' = transfer c (nextSample bufLen c)) := by
  unfold beat at h
  split at h
  next running =>
    by_cases inside : c.engBeat.toNat < bufLen
    · have sample : c.memRead bufLen c.engBuf c.engBeat.toNat = some (nextSample bufLen c) := if_pos inside
      simp only [beatRunning, sample] at h
      split at h
      next last => exact Or.inr ⟨running, inside, Or.inl ⟨last, (Option.some.inj h).symm⟩⟩
      next inner => exact Or.inr ⟨running, inside, Or.inr ⟨inner, (Option.some.inj h).symm⟩⟩
    · have noSample : c.memRead bufLen c.engBuf c.engBeat.toNat = none := if_neg inside
      simp only [beatRunning, noSample, reduceCtorEq] at h
  next paused => exact Or.inl ⟨Bool.eq_false_of_not_eq_true paused, (Option.some.inj h).symm⟩

/-! ## What each agent's step does to every channel -/

/-- A channel that no agent touched made a move: the empty one. -/
theorem rel_unchanged {s : State} {n : Nat} (o : Option Chan) : Option.Rel (ChanStep s n) o o := by
  cases o with
  | none => exact .none
  | some c => exact .some .unchanged

/-- Where one channel made a move and the others stayed, every channel made a move. -/
theorem rel_set {s : State} {k : Nat} {c c' : Chan} (hc : s.chans[k]? = some c) (hstep : ChanStep s k c c') (n : Nat) :
    Option.Rel (ChanStep s n) s.chans[n]? (s.chans.set k c')[n]? := by
  by_cases hk : k = n
  · subst hk
    have hlt : k < s.chans.length := (List.getElem?_eq_some_iff.1 hc).1
    rw [hc, List.getElem?_set_self hlt]
    exact .some hstep
  · rw [List.getElem?_set_ne hk]
    exact rel_unchanged _

/-- The channels after a refused command of a channel that exists: its sticky bit is set (60_exceptions.md R201). -/
theorem raise_chans_eq_set {s : State} {n : Nat} {c : Chan} (hc : s.chans[n]? = some c) :
    (s.raise .protocol n).chans = s.chans.set n c.setProtocolErr ∧
    (s.raise .precond n).chans = s.chans.set n c.setPrecondErr := by
  simp [List.modify_eq_set_getElem?, hc]

/-- A command run with the steps to come behind it moves only its own channel. -/
theorem exec_chans {s t : State} {w : CmdWord} {i : Instr} {rest : List Event}
    (hw : s.pending.head? = some (.command w)) (hi : decode w = .ok i)
    (h : exec i { s with pending := rest } = .next t) :
    t.block = s.block ∧ ∀ n, Option.Rel (ChanStep s n) s.chans[n]? t.chans[n]? := by
  rw [exec_eq_onChannel] at h
  have ran (c c' : Chan) (hc : s.chans[i.ch.toNat]? = some c) (hcmd : CommandStep s c i c') (n : Nat) :
      Option.Rel (ChanStep s n) s.chans[n]? (s.chans.set i.ch.toNat c')[n]? :=
    rel_set hc (.command hw hi rfl hcmd) n
  rcases onChannel_next h with ⟨-, rfl⟩ | ⟨c, hc, ⟨c', r, hr, rfl⟩ | ⟨k, hk, rfl⟩⟩
  · exact ⟨rfl, fun n => rel_unchanged _⟩
  · exact ⟨rfl, ran c c' hc (commandRule_done hr)⟩
  · refine ⟨State.raise_block _ k _, ?_⟩
    obtain ⟨protocolErr, precondErr⟩ := raise_chans_eq_set hc
    cases k with
    | illegal => exact fun n => rel_unchanged _
    | protocol => rw [protocolErr]; exact ran c _ hc (.protocolErr hk)
    | precond => rw [precondErr]; exact ran c _ hc (.precondErr hk)

/-- Inversion of the step: the block's parameters and the number of channels stay, and every channel makes one of its
moves. -/
theorem step_chans {s t : State} (h : step s = .next t) :
    t.block = s.block ∧ ∀ n, Option.Rel (ChanStep s n) s.chans[n]? t.chans[n]? := by
  obtain ⟨-, h⟩ := step_next h
  unfold runPending at h
  split at h
  next => cases h; exact ⟨rfl, fun n => rel_unchanged _⟩
  next e rest hp =>
    have head : s.pending.head? = some e := by rw [hp]; rfl
    cases e with
    | command w =>
      simp only [runEvent, runCommand] at h
      split at h
      · cases h; exact ⟨rfl, fun n => rel_unchanged _⟩
      next i hi => exact exec_chans head hi h
    | beat ch =>
      simp only [runEvent, runBeat] at h
      split at h
      · cases h
      next c hc =>
        split at h
        · cases h
        next c' hbeat =>
          cases h
          refine ⟨rfl, rel_set hc ?_⟩
          rcases beat_some hbeat with ⟨-, rfl⟩ | ⟨running, inside, ⟨last, rfl⟩ | ⟨inner, rfl⟩⟩
          · exact .unchanged
          · exact .complete head rfl running inside last
          · exact .transfer head rfl running inside inner
    | capture ch e m =>
      simp only [runEvent, runCapture] at h
      split at h
      · cases h
      next c hc =>
        split at h
        next metered => cases h; exact ⟨rfl, rel_set hc (.capture head rfl metered)⟩
        next => cases h
    | time => cases h; exact ⟨rfl, fun n => rel_unchanged _⟩
    | reset =>
      cases h
      refine ⟨rfl, fun n => ?_⟩
      simp only [runReset, List.getElem?_map]
      cases s.chans[n]? with
      | none => exact .none
      | some c => exact .some (.reset head)

/-- A channel before and after a step made one of its moves. -/
theorem chanStep_of_step {s t : State} {n : Nat} {c c' : Chan} (h : step s = .next t) (hc : s.chans[n]? = some c)
    (hc' : t.chans[n]? = some c') : ChanStep s n c c' := by
  have moved := (step_chans h).2 n
  rw [hc, hc'] at moved
  cases moved with
  | some moved => exact moved

/-- The shape of every step lemma: what every move of a channel keeps, every step keeps of all channels. -/
theorem step_keeps {I : Nat → Chan → Prop}
    (keeps : ∀ {s : State} {n : Nat} {c c' : Chan}, s.block.Valid → c.cfg.Valid → ChanStep s n c c' →
      I s.block.bufLen c → I s.block.bufLen c')
    {s t : State} (inv : ∀ c ∈ s.chans, I s.block.bufLen c) (h : step s = .next t) :
    ∀ c ∈ t.chans, I t.block.bufLen c := by
  obtain ⟨⟨block, -, -, cfgs⟩, -⟩ := step_next h
  obtain ⟨hblock, moved⟩ := step_chans h
  intro c' hc'
  obtain ⟨n, hn⟩ := List.mem_iff_getElem?.1 hc'
  have moved := moved n
  rw [hn] at moved
  generalize hc : s.chans[n]? = o at moved
  cases moved with
  | some moved =>
    have mem := List.mem_of_getElem? hc
    rw [hblock]
    exact keeps block (cfgs _ (List.mem_map_of_mem mem)) moved (inv _ mem)

end Sys2Proof.Machine
end

section
/-! PROOFS. The frame of each move: the fields it may write, as one equation; and what no move of a command writes. -/

namespace Sys2Proof.Machine

/-- A transition of the envelope writes only the envelope's registers and the three targets (R153 to R157). -/
theorem envelope_frame {now : Instant} {i : Instr} {c x c' : Chan} (entry : EnvelopeEntry now c i x)
    (h : recompute x = some c') :
    c' = { c with
      envState := c'.envState, envVel := c'.envVel, envHarm := c'.envHarm, dlValid := c'.dlValid, dl := c'.dl
      capie := c'.capie, tgtPeriod := c'.tgtPeriod, tgtAmp := c'.tgtAmp, tgtInv := c'.tgtInv } := by
  obtain ⟨-, rfl⟩ := recompute_some h
  cases entry <;> rfl

/-- A write of a descriptor writes only the two descriptors. -/
theorem setDesc_frame (c : Chan) (d : Slot) (v : Desc) :
    c.setDesc d v = { c with desc0 := (c.setDesc d v).desc0, desc1 := (c.setDesc d v).desc1 } := by
  unfold Chan.setDesc; split <;> rfl

/-- A fetch writes only the engine's registers (R121). -/
theorem fetch_frame (c : Chan) (p : Slot) :
    fetch c p = { c with
      engPtr := p, engRun := (c.desc p).valid, engBuf := (fetch c p).engBuf, engBeat := (fetch c p).engBeat } := by
  unfold fetch; split <;> simp_all

/-- A resume writes only the engine's registers, the pointer kept (R112). -/
theorem resume_frame (c : Chan) :
    resume c = { c with
      engRun := (resume c).engRun, engBuf := (resume c).engBuf, engBeat := (resume c).engBeat } := by
  unfold resume
  split
  · rfl
  · rw [fetch_frame]

/-- Reclaiming clears TCF and touches the descriptors (R111). -/
theorem reclaim_frame (c : Chan) :
    reclaim c = { c with tcf := false, desc0 := (reclaim c).desc0, desc1 := (reclaim c).desc1 } :=
  setDesc_frame { c with tcf := false } _ _

/-- What an accepted SUBMIT may write (R112). -/
theorem submitted_frame (bufLen : Nat) (buf : Slot) (c : Chan) :
    submitted bufLen buf c = { c with
      desc0 := (queueBuffer bufLen buf c).desc0
      desc1 := (queueBuffer bufLen buf c).desc1
      phase := advancePhase bufLen c.cfg.spacing c.phase c.tgtPeriod
      nextValid := true
      engRun := (submitted bufLen buf c).engRun
      engBuf := (submitted bufLen buf c).engBuf
      engBeat := (submitted bufLen buf c).engBeat } := by
  refine (resume_frame _).trans ?_
  simp [submitted, queueBuffer]

/-- MISSED records a completion that found TCF set (R123). -/
theorem recordMissed_eq (c : Chan) :
    recordMissed c = { c with chErr := { c.chErr with missed := c.chErr.missed || c.tcf } } := by
  unfold recordMissed
  split
  next waiting =>
    have missed : (c.chErr.missed || c.tcf) = true := by rw [waiting, Bool.or_true]
    rw [missed]
    rfl
  next free =>
    have missed : (c.chErr.missed || c.tcf) = c.chErr.missed := by simp [free]
    rw [missed]

/-- A completion fetches the other descriptor, once the completion is recorded (R123). -/
theorem complete_eq (c : Chan) :
    complete c = fetch { c with
      tcf := true, doneIdx := c.engPtr, chErr := { c.chErr with missed := c.chErr.missed || c.tcf } }
      (otherSlot c.engPtr) := by
  rw [complete, recordMissed_eq]

/-- What a completion writes: the completion record, the engine's registers and MISSED (R123). -/
theorem complete_frame (c : Chan) :
    complete c = { c with
      tcf := true
      doneIdx := c.engPtr
      chErr := { c.chErr with missed := c.chErr.missed || c.tcf }
      engPtr := otherSlot c.engPtr
      engRun := (c.desc (otherSlot c.engPtr)).valid
      engBuf := (complete c).engBuf
      engBeat := (complete c).engBeat } := by
  rw [complete_eq]
  exact fetch_frame _ _

end Sys2Proof.Machine
end

section
/-! PROOFS. The envelope invariant, the period invariant, the beat's bound and the form of buffer memory: each move of a
channel keeps them. -/

namespace Sys2Proof.Machine

/-! ## Envelope (10_state.md R67) -/

theorem atReset_envelopeInv (k : ChanCfg) (m : Meter) (a : Sample) (o : List Sample) :
    EnvelopeInv (Chan.atReset k m a o) := by
  simp [EnvelopeInv, timedState, Chan.atReset]

/-- Each transition enters a state with the deadline, the capture interrupt and the note registers it calls for. -/
theorem EnvelopeEntry.keeps_envelopeInv {now : Instant} {i : Instr} {c x : Chan} (entry : EnvelopeEntry now c i x)
    (inv : EnvelopeInv c) : EnvelopeInv x := by
  obtain ⟨deadline, interrupt, metered, silent⟩ := inv
  cases entry with
  | attack =>
    have quiet : c.envState ≠ .sampleFrequency → c.capie = false := by simpa using mt interrupt.1
    simpa [EnvelopeInv, timedState, noteState] using quiet
  | release ch vel note =>
    have quiet : c.capie = false := by rcases note with note | note <;> simpa [note] using interrupt
    simp [EnvelopeInv, timedState, noteState, quiet]
  | sustain ch _ attack => simp_all [EnvelopeInv, timedState, noteState]
  | waitStabilize ch _ release meter => simp_all [EnvelopeInv, timedState]
  | offUnmetered ch _ release => simp_all [EnvelopeInv, timedState]
  | sampleFrequency ch _ waiting => simp_all [EnvelopeInv, timedState, noteState]
  | offSampled ch _ sampling => simp_all [EnvelopeInv, timedState, noteState]

theorem CommandStep.keeps_envelopeInv {s : State} {i : Instr} {c c' : Chan} (h : CommandStep s c i c')
    (inv : EnvelopeInv c) : EnvelopeInv c' := by
  cases h with
  | envelope entry target =>
    obtain ⟨-, rfl⟩ := recompute_some target
    exact entry.keeps_envelopeInv inv
  | reclaim ch _ _ => rw [reclaim_frame]; exact inv
  | handOut ch _ _ => rw [reclaim_frame]; exact inv
  | submit ch buf _ _ _ _ => rw [submitted_frame]; exact inv
  | unchanged | protocolErr | precondErr | set | fill | ack | blend => exact inv

theorem ChanStep.keeps_envelopeInv {s : State} {n : Nat} {c c' : Chan} (h : ChanStep s n c c')
    (inv : EnvelopeInv c) : EnvelopeInv c' := by
  cases h with
  | command _ _ _ move => exact move.keeps_envelopeInv inv
  | complete => rw [complete_frame]; exact inv
  | reset => exact atReset_envelopeInv _ _ _ _
  | unchanged | transfer | capture => exact inv

/-- Settles O49: every transition of the schedule meets the envelope's invariant and no other move touches it. -/
theorem stepKeepsEnvelopeInv : Obligations.StepKeepsEnvelopeInv := fun _ _ inv h =>
  step_keeps (I := fun _ => EnvelopeInv) (fun _ _ move => move.keeps_envelopeInv) inv h

/-! ## Periods (10_state.md R68, R25) -/

theorem atReset_periodInv {k : ChanCfg} (valid : k.Valid) (m : Meter) (a : Sample) (o : List Sample) :
    PeriodInv (Chan.atReset k m a o) := by
  simp [Chan.atReset, valid.1]

/-- The harmonic a channel drives at divides its period into at least 1. -/
theorem driveHarm_bounds {c : Chan} (inv : PeriodInv c) :
    1 ≤ (driveHarm c).toNat ∧ (driveHarm c).toNat ≤ c.cfgPeriod.toNat := by
  obtain ⟨period, -, -, harm, note⟩ := inv
  unfold driveHarm
  split
  next h => exact ⟨harm, note (Or.inl h)⟩
  next h => exact ⟨harm, note (Or.inr (Or.inl h))⟩
  next h => exact ⟨harm, note (Or.inr (Or.inr h))⟩
  all_goals exact ⟨Nat.le_refl 1, period⟩

/-- Recompute gives a target period of at least 1 (R153). -/
theorem recompute_keeps_periodInv {c c' : Chan} (h : recompute c = some c') (inv : PeriodInv c) : PeriodInv c' := by
  obtain ⟨-, rfl⟩ := recompute_some h
  obtain ⟨harmPos, harmLe⟩ := driveHarm_bounds inv
  obtain ⟨period, -, request, harm, note⟩ := inv
  refine ⟨period, ?_, request, harm, note⟩
  have quotient : 1 ≤ c.cfgPeriod.toNat / (driveHarm c).toNat := Nat.div_pos harmLe harmPos
  have fits : c.cfgPeriod.toNat / (driveHarm c).toNat < 2 ^ 32 := (Nat.div_le_self _ _).trans_lt c.cfgPeriod.isLt
  rwa [Chan.setTarget_tgtPeriod, BitVec.toNat_ofNat, Nat.mod_eq_of_lt fits]

/-- ON's precondition makes its harmonic fit the period; the other transitions keep the harmonic or set it to 1. -/
theorem EnvelopeEntry.keeps_periodInv {now : Instant} {i : Instr} {c x : Chan} (entry : EnvelopeEntry now c i x)
    (inv : PeriodInv c) : PeriodInv x := by
  obtain ⟨period, target, request, harm, note⟩ := inv
  cases entry with
  | attack ch vel new nonzero quotient _ _ =>
    exact ⟨period, target, request, Nat.pos_of_ne_zero nonzero, fun _ => Nat.le_of_not_lt fun above =>
      quotient (Nat.div_eq_of_lt above)⟩
  | release ch vel state =>
    exact ⟨period, target, request, harm, fun _ => note (state.imp_right Or.inl)⟩
  | sustain ch _ state => exact ⟨period, target, request, harm, fun _ => note (Or.inl state)⟩
  | waitStabilize | offUnmetered => exact ⟨period, target, request, Nat.le_refl 1, fun _ => period⟩
  | sampleFrequency | offSampled => exact ⟨period, target, request, harm, by simp⟩

/-- The blend is exact: it never leaves its 32 bits (43_calibration.md R183). -/
theorem toNat_blend (p m : Period) : (blend p m).toNat = (9 * p.toNat + m.toNat + 5) / 10 := by
  have hp := p.isLt
  have hm := m.isLt
  rw [blend, BitVec.toNat_ofNat, Nat.mod_eq_of_lt (by omega)]

theorem CommandStep.keeps_periodInv {s : State} {i : Instr} {c c' : Chan} (h : CommandStep s c i c')
    (inv : PeriodInv c) : PeriodInv c' := by
  obtain ⟨period, target, request, harm, note⟩ := id inv
  cases h with
  | envelope entry recomputed => exact recompute_keeps_periodInv recomputed (entry.keeps_periodInv inv)
  | reclaim => rw [reclaim_frame]; exact inv
  | handOut => rw [reclaim_frame]; exact ⟨period, target, fun _ => target, harm, note⟩
  | submit => rw [submitted_frame]; exact inv
  | set ch new amp inverted nonzero =>
    exact ⟨period, Nat.pos_of_ne_zero fun zero => nonzero (BitVec.eq_of_toNat_eq zero), request, harm, note⟩
  | fill => exact ⟨period, target, by simp, harm, note⟩
  | blend ch armed =>
    have sampling : c.envState = .sampleFrequency := by simp_all [calArmed]
    refine ⟨?_, target, request, harm, by simp [meterAck, sampling]⟩
    show 1 ≤ (Machine.blend _ _).toNat
    rw [toNat_blend]
    omega
  | unchanged | protocolErr | precondErr | ack => exact inv

theorem ChanStep.keeps_periodInv {s : State} {n : Nat} {c c' : Chan} (valid : c.cfg.Valid) (h : ChanStep s n c c')
    (inv : PeriodInv c) : PeriodInv c' := by
  cases h with
  | command _ _ _ move => exact move.keeps_periodInv inv
  | complete => rw [complete_frame]; exact inv
  | reset => exact atReset_periodInv valid _ _ _
  | unchanged | transfer | capture => exact inv

/-- Settles O50: a division by a harmonic that fits its period leaves at least 1, and so do SET and the blend. -/
theorem stepKeepsPeriodInv : Obligations.StepKeepsPeriodInv := fun _ _ inv h =>
  step_keeps (I := fun _ => PeriodInv) (fun _ cfg move => move.keeps_periodInv cfg) inv h

/-! ## The beat (10_state.md R52) -/

theorem atReset_beatInv {bufLen : Nat} (h : 1 ≤ bufLen) (k : ChanCfg) (m : Meter) (a : Sample) (o : List Sample) :
    BeatInv bufLen (Chan.atReset k m a o) := by
  exact ⟨fun _ => h, fun paused => by cases paused⟩

/-- A fetch starts at beat 0 or pauses where the beat stands, so it is made where the beat stands at BUF_LEN. -/
theorem fetch_beatInv {bufLen : Nat} {c : Chan} {p : Slot} (pos : 1 ≤ bufLen) (h : c.engBeat.toNat = bufLen) :
    BeatInv bufLen (fetch c p) := by
  cases valid : (c.desc p).valid with
  | true => rw [fetch_valid valid]; exact ⟨fun _ => pos, fun paused => by cases paused⟩
  | false => rw [fetch_invalid valid]; exact ⟨fun running => (by cases running), fun _ => h⟩

theorem submitted_beatInv {bufLen : Nat} {buf : Slot} {c : Chan} (pos : 1 ≤ bufLen) (inv : BeatInv bufLen c) :
    BeatInv bufLen (submitted bufLen buf c) := by
  have beat : (queueBuffer bufLen buf c).engBeat = c.engBeat := by simp [queueBuffer]
  have run : (queueBuffer bufLen buf c).engRun = c.engRun := by simp [queueBuffer]
  unfold submitted resume
  split
  next => simpa only [BeatInv, beat, run] using inv
  next paused => exact fetch_beatInv pos (by rw [beat]; exact inv.2 (by simpa [run] using paused))

theorem CommandStep.keeps_beatInv {s : State} {i : Instr} {c c' : Chan} (pos : 1 ≤ s.block.bufLen)
    (h : CommandStep s c i c') (inv : BeatInv s.block.bufLen c) : BeatInv s.block.bufLen c' := by
  cases h with
  | envelope entry target => rw [envelope_frame entry target]; exact inv
  | reclaim | handOut => rw [reclaim_frame]; exact inv
  | submit => exact submitted_beatInv pos inv
  | unchanged | protocolErr | precondErr | set | fill | ack | blend => exact inv

theorem ChanStep.keeps_beatInv {s : State} {n : Nat} {c c' : Chan} (valid : s.block.Valid) (h : ChanStep s n c c')
    (inv : BeatInv s.block.bufLen c) : BeatInv s.block.bufLen c' := by
  obtain ⟨pos, fits⟩ := valid
  cases h with
  | command _ _ _ move => exact move.keeps_beatInv pos inv
  | transfer _ _ running inside inner =>
    have next : (c.engBeat + 1).toNat < s.block.bufLen := by bv_omega
    exact ⟨fun _ => next, fun paused => absurd (running.symm.trans paused) (by decide)⟩
  | complete _ _ _ _ last =>
    rw [complete_eq]
    exact fetch_beatInv pos last
  | reset => exact atReset_beatInv pos _ _ _ _
  | unchanged | capture => exact inv

/-- Settles O51: a beat counts up to BUF_LEN, where the completion's fetch starts over or pauses. -/
theorem stepKeepsBeatInv : Obligations.StepKeepsBeatInv := fun _ _ inv h =>
  step_keeps (I := BeatInv) (fun block _ move => move.keeps_beatInv block) inv h

/-! ## Buffer memory (10_state.md R62, 20_memory.md R71) -/

theorem atReset_memInv (bufLen : Nat) (k : ChanCfg) (m : Meter) (a : Sample) (o : List Sample) :
    MemInv bufLen (Chan.atReset k m a o) :=
  ⟨atReset_mem_wf k m a o, fun _ h => by cases h⟩

/-- Filling one of the two buffers keeps the memory canonical and inside them. -/
theorem fillUpTo_memInv {bufLen : Nat} {b : Slot} {f : Nat → Sample} {m : Memory} (wf : m.wf)
    (inside : ∀ p ∈ m, p.1 < 2 * bufLen) :
    (fillUpTo bufLen b f m bufLen).wf ∧ ∀ p ∈ fillUpTo bufLen b f m bufLen, p.1 < 2 * bufLen := by
  refine ⟨fillUpTo_wf bufLen b f m wf bufLen, fun p hp => ?_⟩
  rcases mem_fillUpTo bufLen b f m bufLen p hp with old | ⟨-, below⟩
  · exact inside p old
  · have slot : b.toNat * bufLen ≤ 1 * bufLen := Nat.mul_le_mul_right _ (by omega)
    omega

theorem CommandStep.keeps_memInv {s : State} {i : Instr} {c c' : Chan} (h : CommandStep s c i c')
    (inv : MemInv s.block.bufLen c) : MemInv s.block.bufLen c' := by
  cases h with
  | envelope entry target => rw [envelope_frame entry target]; exact inv
  | reclaim | handOut => rw [reclaim_frame]; exact inv
  | submit => rw [submitted_frame]; exact inv
  | fill => exact fillUpTo_memInv inv.1 inv.2
  | unchanged | protocolErr | precondErr | set | ack | blend => exact inv

theorem ChanStep.keeps_memInv {s : State} {n : Nat} {c c' : Chan} (h : ChanStep s n c c')
    (inv : MemInv s.block.bufLen c) : MemInv s.block.bufLen c' := by
  cases h with
  | command _ _ _ move => exact move.keeps_memInv inv
  | complete => rw [complete_frame]; exact inv
  | reset => exact atReset_memInv _ _ _ _ _
  | unchanged | transfer | capture => exact inv

/-- Settles O52: only FILL writes memory, inside one of the two buffers. -/
theorem stepKeepsMemInv : Obligations.StepKeepsMemInv := fun _ _ inv h =>
  step_keeps (I := MemInv) (fun _ _ move => move.keeps_memInv) inv h

end Sys2Proof.Machine
end

section
/-! PROOFS. The pipeline invariant (10_state.md R66 in the inductive form of log 19): where the engine is, and that each move
of a channel keeps it. -/

namespace Sys2Proof.Machine

/-! ## The two descriptors after each move -/

/-- R66 (b), for a descriptor by its number: it points at its own buffer. -/
theorem desc_bufs_iff (c : Chan) : (c.desc0.buf = 0 ∧ c.desc1.buf = 1) ↔ ∀ d, (c.desc d).buf = d := by
  constructor
  · rintro ⟨h0, h1⟩ d
    unfold Chan.desc
    split
    next zero => rw [h0, zero]
    next nonzero => rw [h1, otherSlot_of_ne d 0 nonzero]; rfl
  · exact fun h => ⟨h 0, h 1⟩

/-- Reclaiming invalidates the finished descriptor and leaves the other one alone (R111). -/
theorem desc_reclaim (c : Chan) (d : Slot) :
    (reclaim c).desc d = if d = c.doneIdx then { c.desc d with valid := false } else c.desc d := by
  unfold reclaim
  split
  next same => subst same; exact Chan.desc_setDesc_same _ _ _
  next other => exact Chan.desc_setDesc_ne _ _ _ _ other

/-- Queueing makes the idle descriptor valid, at the buffer submitted, and leaves the active one alone (R112). -/
theorem desc_queueBuffer (bufLen : Nat) (buf : Slot) (c : Chan) (d : Slot) :
    (queueBuffer bufLen buf c).desc d = if d = otherSlot c.active then { valid := true, buf := buf } else c.desc d := by
  have written : (queueBuffer bufLen buf c).desc d = (c.setDesc (otherSlot c.active) ⟨true, buf⟩).desc d := rfl
  rw [written]
  split
  next same => subst same; exact Chan.desc_setDesc_same _ _ _
  next other => exact Chan.desc_setDesc_ne _ _ _ _ other

/-- A resume leaves the descriptors as the queueing made them. -/
theorem desc_submitted (bufLen : Nat) (buf : Slot) (c : Chan) (d : Slot) :
    (submitted bufLen buf c).desc d = (queueBuffer bufLen buf c).desc d := by
  rw [submitted_frame]; rfl

/-- SUBMIT does not disturb a running engine (R112). -/
theorem submitted_of_running {bufLen : Nat} {buf : Slot} {c : Chan} (running : c.engRun = true) :
    submitted bufLen buf c = queueBuffer bufLen buf c := if_pos (by simpa [queueBuffer] using running)

/-- SUBMIT makes a paused engine fetch the descriptor it is paused at (R112). -/
theorem submitted_of_paused {bufLen : Nat} {buf : Slot} {c : Chan} (paused : c.engRun = false) :
    submitted bufLen buf c = fetch (queueBuffer bufLen buf c) c.engPtr := by
  simp [submitted, resume, queueBuffer, paused]

/-- A fetch that runs plays the buffer of a valid descriptor. -/
theorem fetch_playing {c : Chan} {p : Slot} (running : (fetch c p).engRun = true) :
    (fetch c p).engBuf = (c.desc p).buf ∧ (c.desc p).valid = true := by
  cases valid : (c.desc p).valid with
  | true => rw [fetch_valid valid]; exact ⟨rfl, rfl⟩
  | false => rw [fetch_invalid valid] at running; cases running

/-! ## Where the engine is -/

/-- While nothing is queued, a completion that waits is of the active descriptor. -/
theorem doneIdx_of_unqueued {c : Chan} (done : PipelineDone c) (unqueued : c.nextValid = false) :
    c.doneIdx = c.active :=
  by_contra fun other => absurd ((done.2.2 other).1.symm.trans unqueued) (by decide)

/-- While MISSED is not recorded and no buffer is queued, the engine runs exactly at the active descriptor. -/
theorem engRun_iff_of_unqueued {c : Chan} (inv : PipelineInv c) (missed : c.chErr.missed = false)
    (unqueued : c.nextValid = false) : c.engRun = true ↔ c.engPtr = c.active := by
  obtain ⟨⟨-, -, -, -, waiting⟩, tracked⟩ := inv
  obtain ⟨-, idle, done⟩ := tracked missed
  cases tcf : c.tcf with
  | false =>
    obtain ⟨-, atActive, movedOn⟩ := idle tcf
    refine ⟨fun running => by_contra fun moved => ?_, atActive⟩
    exact absurd (running.symm.trans ((movedOn moved).trans unqueued)) (by decide)
  | true =>
    have finished := doneIdx_of_unqueued (done tcf) unqueued
    obtain ⟨-, ofActive, -⟩ := done tcf
    simp [(ofActive finished).trans unqueued, waiting tcf, finished]

/-- An engine that runs while nothing is queued plays the current buffer, R66 (e). -/
theorem engBuf_of_unqueued {c : Chan} (inv : PipelineInv c) (missed : c.chErr.missed = false)
    (unqueued : c.nextValid = false) (running : c.engRun = true) : c.engBuf = c.curBuf := by
  obtain ⟨current, -, -, playing, -⟩ := inv.1
  rw [(playing running).1, (engRun_iff_of_unqueued inv missed unqueued).1 running, current]

/-- An engine that is paused while nothing is queued waits at the idle descriptor, where SUBMIT puts the next buffer. -/
theorem engPtr_of_paused {c : Chan} (inv : PipelineInv c) (missed : c.chErr.missed = false)
    (unqueued : c.nextValid = false) (paused : c.engRun = false) : c.engPtr = otherSlot c.active :=
  otherSlot_of_ne _ _ fun atActive =>
    absurd (((engRun_iff_of_unqueued inv missed unqueued).2 atActive).symm.trans paused) (by decide)

/-- Settles O29: clauses (e) and (f) say where the engine is; the others are clauses of the inductive form. -/
theorem pipelineInvGivesItsClauses : Obligations.PipelineInvGivesItsClauses := by
  intro c inv missed
  obtain ⟨⟨current, bufs, request, -, -⟩, tracked⟩ := id inv
  obtain ⟨queued, idle, -⟩ := tracked missed
  refine ⟨current, bufs, request, queued, engBuf_of_unqueued inv missed, fun paused tcf => ?_⟩
  obtain ⟨-, atActive, -⟩ := idle tcf
  exact otherSlot_of_ne _ _ fun here => absurd ((atActive here).symm.trans paused) (by decide)

/-! ## The moves -/

theorem atReset_pipelineInv (k : ChanCfg) (m : Meter) (a : Sample) (o : List Sample) :
    PipelineInv (Chan.atReset k m a o) := by
  simp [PipelineInv, PipelineShape, PipelineIdle, Chan.atReset, Chan.desc, otherSlot]

/-- Reclaiming leaves the engine's descriptor alone: a completion that waits is of the other one. -/
theorem reclaim_shape {c : Chan} (waiting : c.tcf = true) (shape : PipelineShape c) : PipelineShape (reclaim c) := by
  obtain ⟨current, bufs, request, playing, finished⟩ := shape
  have bufs' := (desc_bufs_iff (reclaim c)).2 fun d => by
    rw [desc_reclaim]
    split <;> exact (desc_bufs_iff c).1 bufs d
  have engine : (reclaim c).desc c.engPtr = c.desc c.engPtr := by
    rw [desc_reclaim, if_neg (by rw [finished waiting]; exact otherSlot_ne _)]
  have playing' : c.engRun = true → c.engBuf = c.engPtr ∧ ((reclaim c).desc c.engPtr).valid = true := by
    rwa [engine]
  rw [reclaim_frame]
  exact ⟨current, bufs', request, playing', fun _ => finished waiting⟩

/-- REQUEST without a replacement: the engine is paused at the idle descriptor and the active one is invalid. -/
theorem reclaim_pipelineInv {c : Chan} (waiting : c.tcf = true) (unqueued : c.nextValid = false)
    (inv : PipelineInv c) : PipelineInv (reclaim c) := by
  obtain ⟨shape, tracked⟩ := inv
  refine ⟨reclaim_shape waiting shape, ?_⟩
  obtain ⟨-, -, -, -, finished⟩ := shape
  have idle (missed : c.chErr.missed = false) :
      ((reclaim c).desc (otherSlot c.active)).valid = c.nextValid ∧
        (((reclaim c).desc c.active).valid = true ↔ c.engPtr = c.active) ∧
        (c.engPtr = c.active → c.engRun = true) ∧ (c.engPtr ≠ c.active → c.engRun = c.nextValid) := by
    obtain ⟨queued, -, done⟩ := tracked missed
    have active := doneIdx_of_unqueued (done waiting) unqueued
    obtain ⟨-, ofActive, -⟩ := done waiting
    simp [desc_reclaim, finished waiting, active, queued, ofActive active]
  rw [reclaim_frame]
  exact fun missed => ⟨(idle missed).1, fun _ => (idle missed).2, fun tcf => by cases tcf⟩

/-- REQUEST with a replacement: the descriptor that was idle becomes active, and the engine is there, or has finished it
too and waits at the other one. -/
theorem handOut_pipelineInv {c : Chan} (waiting : c.tcf = true) (queued : c.nextValid = true)
    (inv : PipelineInv c) : PipelineInv (handOut (reclaim c)) := by
  obtain ⟨shape, tracked⟩ := inv
  obtain ⟨current, bufs, -, playing, finished'⟩ := reclaim_shape waiting shape
  refine ⟨⟨congrArg otherSlot current, bufs, fun _ => rfl, playing, finished'⟩, ?_⟩
  obtain ⟨-, -, -, -, finished⟩ := shape
  have idle (missed : c.chErr.missed = false) :
      ((reclaim c).desc (otherSlot (otherSlot c.active))).valid = false ∧
        (((reclaim c).desc (otherSlot c.active)).valid = true ↔ c.engPtr = otherSlot c.active) ∧
        (c.engPtr = otherSlot c.active → c.engRun = true) ∧
        (c.engPtr ≠ otherSlot c.active → c.engRun = false) := by
    obtain ⟨valid, -, done⟩ := tracked missed
    obtain ⟨activeValid, ofActive, ofOther⟩ := done waiting
    by_cases active : c.doneIdx = c.active
    · simp [desc_reclaim, finished waiting, active, valid, queued, ofActive active]
    · have other := otherSlot_of_ne _ _ active
      have invalid : (c.desc c.active).valid = false := by simpa [active] using activeValid
      simp [desc_reclaim, finished waiting, other, invalid, (ofOther active).2, (otherSlot_ne c.active).symm]
  rw [reclaim_frame]
  exact fun missed => ⟨(idle missed).1, fun _ => (idle missed).2, fun tcf => by cases tcf⟩

/-- An accepted SUBMIT leaves a running engine at a valid descriptor's buffer. -/
theorem submitted_shape {bufLen : Nat} {buf : Slot} {c : Chan} (filled : c.frValid = false)
    (vacated : buf = otherSlot c.curBuf) (shape : PipelineShape c) : PipelineShape (submitted bufLen buf c) := by
  obtain ⟨current, bufs, -, playing, finished⟩ := shape
  have bufOf (d : Slot) : ((queueBuffer bufLen buf c).desc d).buf = d := by
    rw [desc_queueBuffer]
    split
    next idle => rw [vacated, current, idle]
    next => exact (desc_bufs_iff c).1 bufs d
  have bufs' := (desc_bufs_iff (submitted bufLen buf c)).2 fun d => by rw [desc_submitted, bufOf]
  have playing' (runs : (submitted bufLen buf c).engRun = true) :
      (submitted bufLen buf c).engBuf = c.engPtr ∧ ((submitted bufLen buf c).desc c.engPtr).valid = true := by
    cases run : c.engRun with
    | true =>
      obtain ⟨buffer, valid⟩ := playing run
      rw [desc_submitted, desc_queueBuffer, submitted_of_running run]
      refine ⟨by simpa [queueBuffer] using buffer, ?_⟩
      split
      · rfl
      · exact valid
    | false =>
      rw [desc_submitted]
      rw [submitted_of_paused run] at runs ⊢
      obtain ⟨buffer, valid⟩ := fetch_playing runs
      exact ⟨buffer.trans (bufOf _), valid⟩
  rw [submitted_frame] at bufs' playing' ⊢
  exact ⟨current, bufs', fun outstanding => absurd (outstanding.symm.trans filled) (by decide), playing', finished⟩

/-- While MISSED is not recorded the engine runs after an accepted SUBMIT: it was running, or it was paused at the
descriptor that SUBMIT made valid. -/
theorem submitted_runs {bufLen : Nat} {buf : Slot} {c : Chan} (inv : PipelineInv c) (missed : c.chErr.missed = false)
    (unqueued : c.nextValid = false) : (submitted bufLen buf c).engRun = true := by
  cases run : c.engRun with
  | true => rw [submitted_of_running run]; simpa [queueBuffer] using run
  | false =>
    rw [submitted_of_paused run, engPtr_of_paused inv missed unqueued run, fetch_valid (by simp [desc_queueBuffer])]

theorem submitted_pipelineInv {bufLen : Nat} {buf : Slot} {c : Chan} (unqueued : c.nextValid = false)
    (filled : c.frValid = false) (vacated : buf = otherSlot c.curBuf) (inv : PipelineInv c) :
    PipelineInv (submitted bufLen buf c) := by
  refine ⟨submitted_shape filled vacated inv.1, ?_⟩
  have runs (missed : c.chErr.missed = false) := submitted_runs (bufLen := bufLen) (buf := buf) inv missed unqueued
  have idleValid : ((submitted bufLen buf c).desc (otherSlot c.active)).valid = true := by
    simp [desc_submitted, desc_queueBuffer]
  have activeKept : (submitted bufLen buf c).desc c.active = c.desc c.active := by
    rw [desc_submitted, desc_queueBuffer, if_neg (otherSlot_ne c.active).symm]
  obtain ⟨-, tracked⟩ := inv
  rw [submitted_frame] at runs idleValid activeKept ⊢
  intro missed
  obtain ⟨-, idle, done⟩ := tracked missed
  refine ⟨idleValid, fun tcf => ?_, fun tcf => ?_⟩
  · obtain ⟨valid, -, -⟩ := idle tcf
    exact ⟨by rwa [activeKept], fun _ => runs missed, fun _ => runs missed⟩
  · obtain ⟨valid, -, -⟩ := done tcf
    refine ⟨by rwa [activeKept], fun _ => runs missed, fun other => ?_⟩
    exact absurd (doneIdx_of_unqueued (done tcf) unqueued) other

/-- A completion waits at the other descriptor, with the engine there if it was queued. -/
theorem complete_pipelineInv {c : Chan} (running : c.engRun = true) (inv : PipelineInv c) :
    PipelineInv (complete c) := by
  obtain ⟨⟨current, bufs, request, -, -⟩, tracked⟩ := inv
  have playing : (complete c).engRun = true →
      (complete c).engBuf = otherSlot c.engPtr ∧ (c.desc (otherSlot c.engPtr)).valid = true := fun runs => by
    rw [complete_eq] at runs ⊢
    obtain ⟨buf, valid⟩ := fetch_playing runs
    exact ⟨buf.trans ((desc_bufs_iff c).1 bufs _), valid⟩
  have done (missed : c.chErr.missed = false) (tcf : c.tcf = false) :
      (c.desc (otherSlot c.active)).valid = c.nextValid ∧
      ((c.desc c.active).valid = true ↔ c.engPtr = c.active) ∧
        (c.engPtr = c.active → (c.desc (otherSlot c.engPtr)).valid = c.nextValid) ∧
        (c.engPtr ≠ c.active → c.nextValid = true ∧ (c.desc (otherSlot c.engPtr)).valid = false) := by
    obtain ⟨queued, idle, -⟩ := tracked missed
    obtain ⟨activeValid, -, movedOn⟩ := idle tcf
    refine ⟨queued, activeValid, fun here => by rwa [here], fun moved => ⟨(movedOn moved).symm.trans running, ?_⟩⟩
    rw [otherSlot_of_ne _ _ moved, otherSlot_otherSlot]
    simpa [moved] using activeValid
  rw [complete_frame] at playing ⊢
  refine ⟨⟨current, bufs, request, playing, fun _ => rfl⟩, fun missed => ?_⟩
  obtain ⟨missed, tcf⟩ := Bool.or_eq_false_iff.1 missed
  exact ⟨(done missed tcf).1, fun free => (by cases free), fun _ => (done missed tcf).2⟩

theorem CommandStep.keeps_pipelineInv {s : State} {i : Instr} {c c' : Chan} (h : CommandStep s c i c')
    (inv : PipelineInv c) : PipelineInv c' := by
  cases h with
  | envelope entry target => rw [envelope_frame entry target]; exact inv
  | reclaim _ waiting unqueued => exact reclaim_pipelineInv waiting unqueued inv
  | handOut _ waiting queued => exact handOut_pipelineInv waiting queued inv
  | submit _ buf unqueued filled vacated _ => exact submitted_pipelineInv unqueued filled vacated inv
  | fill =>
    obtain ⟨⟨current, bufs, -, engine⟩, tracked⟩ := inv
    exact ⟨⟨current, bufs, fun outstanding => (by cases outstanding), engine⟩, tracked⟩
  | unchanged | protocolErr | precondErr | set | ack | blend => exact inv

theorem ChanStep.keeps_pipelineInv {s : State} {n : Nat} {c c' : Chan} (h : ChanStep s n c c')
    (inv : PipelineInv c) : PipelineInv c' := by
  cases h with
  | command _ _ _ move => exact move.keeps_pipelineInv inv
  | complete _ _ running _ _ => exact complete_pipelineInv (c := Machine.transfer c _) running inv
  | reset => exact atReset_pipelineInv _ _ _ _
  | unchanged | transfer | capture => exact inv

/-- Settles O53: each move of the pipeline takes its inductive form to the next one and no other move touches it. -/
theorem stepKeepsPipelineInv : Obligations.StepKeepsPipelineInv := fun _ _ inv h =>
  step_keeps (I := fun _ => PipelineInv) (fun _ _ move => move.keeps_pipelineInv) inv h

end Sys2Proof.Machine
end

section
/-! PROOFS. What no step changes, and what only one kind of step changes: the configuration (10_state.md R21), the output
(R64), CFG_PERIOD (R28). -/

namespace Sys2Proof.Machine

/-! ## The configuration and the output -/

/-- No command writes a channel's constants, its output history or its amplitude register. -/
theorem CommandStep.keeps_cfg_out_ampReg {s : State} {i : Instr} {c c' : Chan} (h : CommandStep s c i c') :
    c'.cfg = c.cfg ∧ c'.out = c.out ∧ c'.ampReg = c.ampReg := by
  cases h with
  | envelope entry target => rw [envelope_frame entry target]; exact ⟨rfl, rfl, rfl⟩
  | reclaim | handOut => rw [reclaim_frame]; exact ⟨rfl, rfl, rfl⟩
  | submit => rw [submitted_frame]; exact ⟨rfl, rfl, rfl⟩
  | unchanged | protocolErr | precondErr | set | fill | ack | blend => exact ⟨rfl, rfl, rfl⟩

theorem ChanStep.keeps_cfg {s : State} {n : Nat} {c c' : Chan} (h : ChanStep s n c c') : c'.cfg = c.cfg := by
  cases h with
  | command _ _ _ move => exact move.keeps_cfg_out_ampReg.1
  | complete => rw [complete_frame]; rfl
  | unchanged | transfer | capture | reset => rfl

/-- Settles O54: the block's parameters stay, and so do each channel's constants. -/
theorem stepKeepsConfiguration : Obligations.StepKeepsConfiguration := by
  intro s t h
  obtain ⟨block, moved⟩ := step_chans h
  have cfgs : t.chans.map Chan.cfg = s.chans.map Chan.cfg := List.ext_getElem? fun n => by
    rw [List.getElem?_map, List.getElem?_map]
    have moved := moved n
    generalize s.chans[n]? = before, t.chans[n]? = after at moved
    cases moved with
    | some move => exact congrArg some move.keeps_cfg
    | none => rfl
  rw [State.config, State.config, block, cfgs]

/-- Settles O55: both kinds of beat write the sample they move, and no other move writes the output. -/
theorem outputGrowsOnlyByBeats : Obligations.OutputGrowsOnlyByBeats := by
  intro s t n c c' h hc hc'
  cases chanStep_of_step h hc hc' with
  | command _ _ _ move => exact Or.inl move.keeps_cfg_out_ampReg.2
  | transfer head chan running => exact Or.inr ⟨_, head, chan, running, rfl, rfl⟩
  | complete head chan running => rw [complete_frame]; exact Or.inr ⟨_, head, chan, running, rfl, rfl⟩
  | unchanged | capture | reset => exact Or.inl ⟨rfl, rfl⟩

/-! ## CFG_PERIOD -/

/-- A command that changes CFG_PERIOD is a CAL that blends an accepted sample in (43_calibration.md R184). -/
theorem CommandStep.cfgPeriod_changes {s : State} {i : Instr} {c c' : Chan} (h : CommandStep s c i c')
    (changed : c'.cfgPeriod ≠ c.cfgPeriod) :
    (∃ ch, i = .cal ch) ∧ calArmed c = true ∧ isOutlier c.cfgPeriod c.meter.mval = false := by
  cases h with
  | blend ch armed _ _ accepted => exact ⟨⟨ch, rfl⟩, armed, accepted⟩
  | envelope entry target => rw [envelope_frame entry target] at changed; exact absurd rfl changed
  | reclaim | handOut => rw [reclaim_frame] at changed; exact absurd rfl changed
  | submit => rw [submitted_frame] at changed; exact absurd rfl changed
  | unchanged | protocolErr | precondErr | set | fill | ack => exact absurd rfl changed

/-- CAL is armed on a metered channel in SampleFrequency (R184). -/
theorem calArmed_iff (c : Chan) : calArmed c = true ↔ c.cfg.hasMeter = true ∧ c.envState = .sampleFrequency := by
  simp [calArmed]

/-- Settles O56: of the commands only an armed CAL changes CFG_PERIOD, and of the other agents only RESET. -/
theorem cfgPeriodChangesOnlyByCal : Obligations.CfgPeriodChangesOnlyByCal := by
  intro s t n c c' h hc hc' changed
  cases chanStep_of_step h hc hc' with
  | command head decoded chan move =>
    obtain ⟨⟨ch, rfl⟩, armed, accepted⟩ := move.cfgPeriod_changes changed
    obtain ⟨metered, sampling⟩ := (calArmed_iff c).1 armed
    exact Or.inr ⟨_, ch, head, decoded, chan, sampling, metered, accepted⟩
  | reset head => exact Or.inl head
  | complete => rw [complete_frame] at changed; exact absurd rfl changed
  | unchanged | transfer | capture => exact absurd rfl changed

end Sys2Proof.Machine
end

section
/-! PROOFS. The state right after an accepted SUBMIT (40_pipeline.md R112), and the start of a run. -/

namespace Sys2Proof.Machine

/-- A SUBMIT answered OK passed its three checks and left the submitted channel. -/
theorem exec_submit_ok {s t : State} {ch : ChanIdx} {buf : Slot} {c' : Chan} (h : exec (.submit ch buf) s = .next t)
    (ok : t.rsp.sts = .ok) (hc' : t.chans[ch.toNat]? = some c') :
    ∃ c, s.chans[ch.toNat]? = some c ∧ c.nextValid = false ∧ buf = otherSlot c.curBuf ∧ c.tgtPeriod.toNat ≠ 0 ∧
      c' = submitted s.block.bufLen buf c := by
  rcases onChannel_next h with ⟨-, rfl⟩ | ⟨c, hc, ⟨d, r, hr, rfl⟩ | ⟨k, -, rfl⟩⟩
  · cases ok
  · have hlt : ch.toNat < s.chans.length := (List.getElem?_eq_some_iff.1 hc).1
    rw [State.finish_chans, List.getElem?_set_self hlt] at hc'
    obtain rfl := Option.some.inj hc'
    obtain ⟨unqueued, -, vacated, period, left⟩ := submitRule_accepted hr
    exact ⟨c, hc, unqueued, vacated, period, left⟩
  · cases k <;> cases ok

/-- The advanced phase is a remainder modulo the target period (R112). -/
theorem advancePhase_lt (bufLen : Nat) (spacing phase period : Period) (h : period.toNat ≠ 0) :
    (advancePhase bufLen spacing phase period).toNat < period.toNat := by
  rw [advancePhase, BitVec.toNat_ofNat]
  exact (Nat.mod_le _ _).trans_lt (Nat.mod_lt _ (Nat.pos_of_ne_zero h))

/-- Settles O25: the phase is advanced modulo the target period, which SUBMIT leaves alone. -/
theorem phaseBelowTargetAfterSubmit : Obligations.PhaseBelowTargetAfterSubmit := by
  intro s t ch buf c' h ok hc'
  obtain ⟨c, -, -, -, period, rfl⟩ := exec_submit_ok h ok hc'
  rw [submitted_frame]
  exact advancePhase_lt _ _ _ _ period

/-- Settles O27: the paused engine waits at the idle descriptor, which SUBMIT points at the buffer submitted. -/
theorem submitResumesWithTheSubmittedBuffer : Obligations.SubmitResumesWithTheSubmittedBuffer := by
  intro s t ch buf c c' hc inv missed paused h ok hc'
  obtain ⟨d, hd, unqueued, vacated, -, rfl⟩ := exec_submit_ok h ok hc'
  obtain rfl := Option.some.inj (hc.symm.trans hd)
  have idle : (queueBuffer s.block.bufLen buf c).desc (otherSlot c.active) = { valid := true, buf := buf } := by
    rw [desc_queueBuffer, if_pos rfl]
  rw [submitted_of_paused paused, engPtr_of_paused inv missed unqueued paused, fetch_valid (by rw [idle]), idle]
  refine ⟨rfl, rfl, rfl, by simp [queueBuffer, otherSlot], rfl, ?_⟩
  simp [queued, queueBuffer, vacated]

/-- Every invariant holds of a channel at reset (10_state.md R22, 70_reset_and_hazards.md R230). -/
theorem atReset_chanInv {bufLen : Nat} {k : ChanCfg} (pos : 1 ≤ bufLen) (valid : k.Valid) (m : Meter) (a : Sample)
    (o : List Sample) : ChanInv bufLen (Chan.atReset k m a o) :=
  ⟨atReset_envelopeInv k m a o, atReset_periodInv valid m a o, atReset_beatInv pos k m a o,
    atReset_memInv bufLen k m a o, atReset_pipelineInv k m a o⟩

theorem powerOn_inv {k : Config} (valid : k.Valid) : (State.powerOn k).Inv := by
  obtain ⟨⟨pos, -⟩, -, -, chans⟩ := valid
  exact List.forall_mem_map.2 fun cfg member => atReset_chanInv pos (chans cfg member) _ _ _

theorem powerOn_config (k : Config) : (State.powerOn k).config = k := by
  simp [State.config, State.powerOn, Function.comp_def, Chan.powerOn, Chan.atReset]

theorem powerOn_noFault (k : Config) : (State.powerOn k).NoFault :=
  ⟨rfl, List.forall_mem_map.2 fun _ _ => ⟨rfl, rfl, rfl⟩⟩

/-- Settles O13: each invariant holds of every channel at power-on, and State.reset is the power-on state of the bench. -/
theorem invariantsHoldAtReset : Obligations.InvariantsHoldAtReset := by
  have bench : Config.bench.Valid := by decide
  refine ⟨?_, powerOn_inv bench, fun k valid => ⟨powerOn_inv valid, powerOn_config k, powerOn_noFault k⟩⟩
  rw [State.reset, powerOn_config]
  exact bench

end Sys2Proof.Machine
end

section
/-! PROOFS. What a command reads of the block (20_memory.md R84, 60_exceptions.md R213), and which steps write buffer
memory (R71). -/

namespace Sys2Proof.Machine

/-! ## What a command reads -/

/-- Two states show the same outcome to a command of channel n: its channel, the response and GLB_ERR are the same. -/
abbrev sameOutcomeOn (n : Nat) (v t : State) : Prop :=
  v.chans[n]? = t.chans[n]? ∧ v.rsp = t.rsp ∧ v.glbErr = t.glbErr

/-- Of the state a command's rule reads BUF_LEN, NOW and GLB_ERR; everything else it reads is of its channel (R84). -/
theorem commandRule_congr {s u : State} (block : s.block = u.block) (now : s.now = u.now) (glb : s.glbErr = u.glbErr)
    (i : Instr) : commandRule s i = commandRule u i := by
  cases i <;> simp only [commandRule, block, now, glb]

/-- A refusal shows the same outcome in two states that agree on its channel and on GLB_ERR (60_exceptions.md R201). -/
theorem raise_sameOutcomeOn {s u : State} {n : Nat} (chan : s.chans[n]? = u.chans[n]?) (glb : s.glbErr = u.glbErr)
    (k : FaultKind) : sameOutcomeOn n (u.raise k n) (s.raise k n) := by
  cases k with
  | illegal => exact ⟨chan.symm, rfl, rfl⟩
  | protocol | precond => exact ⟨by simp [chan], rfl, glb.symm⟩

/-- A response shows the same outcome in two states that agree on its channel and on GLB_ERR (30_encoding.md R101). -/
theorem finish_sameOutcomeOn {s u : State} {n : Nat} {c : Chan} (hs : s.chans[n]? = some c) (hu : u.chans[n]? = some c)
    (glb : s.glbErr = u.glbErr) (c' : Chan) (r : Response) :
    sameOutcomeOn n (u.finish n c' r) (s.finish n c' r) := by
  have present (x : State) (hx : x.chans[n]? = some c) : (x.finish n c' r).chans[n]? = some c' :=
    List.getElem?_set_self (List.getElem?_eq_some_iff.1 hx).1
  exact ⟨(present u hu).trans (present s hs).symm, rfl, glb.symm⟩

/-- One rule run in two states that agree on its channel and on GLB_ERR ends alike in both. -/
theorem onChannel_sameOutcomeOn {ch : ChanIdx} {s u t : State} {rule : Chan → Reply}
    (chan : s.chans[ch.toNat]? = u.chans[ch.toNat]?) (glb : s.glbErr = u.glbErr) (h : onChannel ch s rule = .next t) :
    ∃ v, onChannel ch u rule = .next v ∧ sameOutcomeOn ch.toNat v t := by
  rcases onChannel_next h with ⟨missing, rfl⟩ | ⟨c, hs, responded | refused⟩
  · exact ⟨_, onChannel_none (chan.symm.trans missing), raise_sameOutcomeOn chan glb .illegal⟩
  all_goals have hu : u.chans[ch.toNat]? = some c := chan.symm.trans hs
  · obtain ⟨c', r, done, rfl⟩ := responded
    exact ⟨u.finish ch.toNat c' r, by rw [onChannel_some hu, done], finish_sameOutcomeOn hs hu glb c' r⟩
  · obtain ⟨k, refuse, rfl⟩ := refused
    exact ⟨u.raise k ch.toNat, by rw [onChannel_some hu, refuse], raise_sameOutcomeOn chan glb k⟩

/-- Settles O47: both states run the same rule on the same channel. -/
theorem commandReadsOnlyItsChannel : Obligations.CommandReadsOnlyItsChannel := by
  intro i s u t chan block now glb h
  rw [exec_eq_onChannel, commandRule_congr block now glb] at h
  rw [exec_eq_onChannel]
  exact onChannel_sameOutcomeOn chan glb h

/-! ## Buffer memory -/

/-- A command that changes buffer memory is a FILL of an outstanding request (41_synthesis.md R141). -/
theorem CommandStep.mem_changes {s : State} {i : Instr} {c c' : Chan} (h : CommandStep s c i c')
    (changed : c'.mem ≠ c.mem) : (∃ ch, i = .fill ch) ∧ c.frValid = true := by
  cases h with
  | fill ch outstanding => exact ⟨⟨ch, rfl⟩, outstanding⟩
  | envelope entry target => rw [envelope_frame entry target] at changed; exact absurd rfl changed
  | reclaim | handOut => rw [reclaim_frame] at changed; exact absurd rfl changed
  | submit => rw [submitted_frame] at changed; exact absurd rfl changed
  | unchanged | protocolErr | precondErr | set | ack | blend => exact absurd rfl changed

/-- Settles O57: of the commands only FILL changes buffer memory, and of the other agents only RESET. -/
theorem bufferMemoryChangesOnlyByFill : Obligations.BufferMemoryChangesOnlyByFill := by
  intro s t n c c' h hc hc' changed
  cases chanStep_of_step h hc hc' with
  | command head decoded chan move =>
    obtain ⟨⟨ch, rfl⟩, outstanding⟩ := move.mem_changes changed
    exact Or.inr ⟨_, ch, head, decoded, chan, outstanding⟩
  | reset head => exact Or.inl head
  | complete => rw [complete_frame] at changed; exact absurd rfl changed
  | unchanged | transfer | capture => exact absurd rfl changed

end Sys2Proof.Machine
end

section
/-! PROOFS. The decoder and the encoder (30_encoding.md R90 to R97). What the decoder does, said once: at the opcode of a
command it reads that command's operands and checks the reserved bits of its format (`decode_eq_checkReserved`), at any
other opcode it finds no command. -/

namespace Sys2Proof

/-! ## What the decoder does -/

/-- One command of each mnemonic, in the order of the opcode map (R93). -/
def oneOfEach : List Instr :=
  [.on 0 0 0, .off 0 0, .update 0, .request 0, .fill 0, .submit 0 0, .set 0 0 0 false, .cal 0, .read 0 0, .rdbuf 0 0 0]

/-- The command of i's mnemonic whose channel and operands are read from the word (R91). -/
def Instr.readFrom (w : CmdWord) : Instr → Instr
  | .on _ _ _ => .on (chField w) (velField w) (harmField w)
  | .off _ _ => .off (chField w) (velField w)
  | .update _ => .update (chField w)
  | .request _ => .request (chField w)
  | .fill _ => .fill (chField w)
  | .submit _ _ => .submit (chField w) (submitBufField w)
  | .set _ _ _ _ => .set (chField w) (periodField w) (ampField w) (invField w)
  | .cal _ => .cal (chField w)
  | .read _ _ => .read (chField w) (regField w)
  | .rdbuf _ _ _ => .rdbuf (chField w) (rdbufBufField w) (indexField w)

@[simp] theorem Instr.readFrom_ch (w : CmdWord) (i : Instr) : (i.readFrom w).ch = chField w := by cases i <;> rfl
@[simp] theorem Instr.readFrom_opcode (w : CmdWord) (i : Instr) : (i.readFrom w).opcode = i.opcode := by cases i <;> rfl
@[simp] theorem Instr.readFrom_format (w : CmdWord) (i : Instr) : (i.readFrom w).format = i.format := by cases i <;> rfl
@[simp] theorem Instr.readFrom_mnemonic (w : CmdWord) (i : Instr) : (i.readFrom w).mnemonic = i.mnemonic := by
  cases i <;> rfl
@[simp] theorem Instr.readFrom_readFrom (w v : CmdWord) (i : Instr) : (i.readFrom v).readFrom w = i.readFrom w := by
  cases i <;> rfl

/-- An opcode is reserved (R94) or some command's (R93). -/
theorem opcode_reserved_or_listed (op : BitVec 4) :
    (op.toNat = 0x0 ∨ 0xB ≤ op.toNat) ∨ ∃ i : Instr, i.opcode = op := by
  have listed : ∀ op : BitVec 4, (op.toNat = 0x0 ∨ 0xB ≤ op.toNat) ∨ ∃ i ∈ oneOfEach, i.opcode = op := by decide
  exact (listed op).imp_right fun ⟨i, _, h⟩ => ⟨i, h⟩

theorem decode_reservedOpcode {w : CmdWord} (h : (opField w).toNat = 0x0 ∨ 0xB ≤ (opField w).toNat) :
    decode w = .error .reservedOpcode := by
  unfold decode
  split
  case h_11 => rfl
  all_goals omega

/-- At the opcode of a command the decoder reads that command (R97). -/
theorem decode_eq_checkReserved {w : CmdWord} {i : Instr} (h : opField w = i.opcode) :
    decode w = checkReserved i.format w (i.readFrom w) := by
  unfold decode
  rw [h]
  cases i <;> rfl

theorem decode_reservedBit {w : CmdWord} {i : Instr} (op : opField w = i.opcode)
    (bit : w &&& i.format.reserved ≠ 0#64) :
    decode w = .error .reservedBit := by
  rw [decode_eq_checkReserved op, checkReserved, if_neg bit]

/-- A word decodes to i exactly when it holds i's opcode and operands and no reserved bit of i's format. -/
theorem decode_eq_ok_iff {w : CmdWord} {i : Instr} :
    decode w = .ok i ↔ opField w = i.opcode ∧ i.readFrom w = i ∧ w &&& i.format.reserved = 0#64 := by
  constructor
  · intro h
    rcases opcode_reserved_or_listed (opField w) with reserved | ⟨j, op⟩
    · rw [decode_reservedOpcode reserved] at h
      cases h
    · by_cases clear : w &&& j.format.reserved = 0#64
      · rw [decode_eq_checkReserved op.symm, checkReserved, if_pos clear] at h
        cases h
        exact ⟨by simp [op], by simp, by simpa using clear⟩
      · rw [decode_reservedBit op.symm clear] at h
        cases h
  · rintro ⟨op, read, clear⟩
    rw [decode_eq_checkReserved op, checkReserved, if_pos clear, read]

/-! ## The round trips -/

/-- The header and the reserved bits of an encoded word (R90, R91), from the family of one lemma per command. -/
theorem encodedFields (i : Instr) : Laws.EncodedFields.Statement i := by
  cases i with
  | on ch vel harm => exact Laws.EncodedFields.on ch vel harm
  | off ch vel => exact Laws.EncodedFields.off ch vel
  | update ch => exact Laws.EncodedFields.update ch
  | request ch => exact Laws.EncodedFields.request ch
  | fill ch => exact Laws.EncodedFields.fill ch
  | submit ch buf => exact Laws.EncodedFields.submit ch buf
  | set ch period amp inv => exact Laws.EncodedFields.set ch period amp inv
  | cal ch => exact Laws.EncodedFields.cal ch
  | read ch reg => exact Laws.EncodedFields.read ch reg
  | rdbuf ch buf index => exact Laws.EncodedFields.rdbuf ch buf index

/-- A field below bit 52 of an encoded word is that field of the operands. -/
theorem extractLsb'_encode {i : Instr} {start len : Nat} {x : BitVec len} (inside : start + len ≤ 52)
    (h : i.operands.extractLsb' start len = x) : (encode i).extractLsb' start len = x :=
  (BitVec.extractLsb'_append_eq_of_add_le inside).trans h

/-- The middle of three fields is read back. -/
theorem extractLsb'_append_middle {l m n : Nat} (hi : BitVec l) (x : BitVec m) (lo : BitVec n) :
    (hi ++ x ++ lo).extractLsb' n m = x := by
  rw [BitVec.extractLsb'_append_eq_of_le le_rfl, Nat.sub_self, BitVec.extractLsb'_append_eq_right]

/-- Every operand is read where the encoder puts it (R91). -/
theorem readFrom_encode (i : Instr) : i.readFrom (encode i) = i := by
  obtain ⟨-, hch, -⟩ := encodedFields i
  cases i with
  | on ch vel harm =>
    have hvel : velField (encode (.on ch vel harm)) = vel :=
      extractLsb'_encode (by omega) BitVec.extractLsb'_append_eq_right
    have hharm : harmField (encode (.on ch vel harm)) = harm :=
      extractLsb'_encode (by omega)
        ((BitVec.extractLsb'_append_eq_of_le (by omega)).trans (extractLsb'_append_middle 0#20 harm 0#8))
    rw [Instr.readFrom, hch, hvel, hharm, Instr.ch]
  | off ch vel =>
    have hvel : velField (encode (.off ch vel)) = vel :=
      extractLsb'_encode (by omega) BitVec.extractLsb'_append_eq_right
    rw [Instr.readFrom, hch, hvel, Instr.ch]
  | submit ch buf =>
    have hbuf : submitBufField (encode (.submit ch buf)) = buf :=
      extractLsb'_encode (by omega) BitVec.extractLsb'_append_eq_right
    rw [Instr.readFrom, hch, hbuf, Instr.ch]
  | set ch period amp inv =>
    have hperiod : periodField (encode (.set ch period amp inv)) = period :=
      extractLsb'_encode (by omega) BitVec.extractLsb'_append_eq_right
    have hamp : ampField (encode (.set ch period amp inv)) = amp :=
      extractLsb'_encode (by omega) (extractLsb'_append_middle (BitVec.ofBool inv ++ 0#3) amp period)
    have hinv : invField (encode (.set ch period amp inv)) = inv := by
      rw [invField, Laws.EncodedFields.getLsbD_encode, if_pos (by omega)]
      show (BitVec.ofBool inv ++ 0#3 ++ amp ++ period).getLsbD 51 = inv
      rw [BitVec.getLsbD_append, if_neg (by omega), BitVec.getLsbD_append, if_neg (by omega), BitVec.getLsbD_append,
        if_neg (by omega)]
      simp
    rw [Instr.readFrom, hch, hperiod, hamp, hinv, Instr.ch]
  | read ch reg =>
    have hreg : regField (encode (.read ch reg)) = reg :=
      extractLsb'_encode (by omega) BitVec.extractLsb'_append_eq_right
    rw [Instr.readFrom, hch, hreg, Instr.ch]
  | rdbuf ch buf index =>
    have hindex : indexField (encode (.rdbuf ch buf index)) = index :=
      extractLsb'_encode (by omega) BitVec.extractLsb'_append_eq_right
    have hbuf : rdbufBufField (encode (.rdbuf ch buf index)) = buf :=
      extractLsb'_encode (by omega) (extractLsb'_append_middle 0#19 buf index)
    rw [Instr.readFrom, hch, hbuf, hindex, Instr.ch]
  | update | request | fill | cal => rw [Instr.readFrom, hch, Instr.ch]

/-- Settles O1: the encoded word holds the opcode and the operands, and no reserved bit. -/
theorem decodeOfEncode : Obligations.DecodeOfEncode := by
  intro i
  obtain ⟨op, -, clear⟩ := encodedFields i
  exact decode_eq_ok_iff.2 ⟨op, readFrom_encode i, clear⟩

/-- Words that agree in a field agree in each bit of it. -/
theorem getLsbD_eq_of_extractLsb'_eq {w v : CmdWord} {start len k : Nat}
    (field : w.extractLsb' start len = v.extractLsb' start len) (above : start ≤ k) (below : k < start + len) :
    w.getLsbD k = v.getLsbD k := by
  have bit := congrArg (BitVec.getLsbD · (k - start)) field
  simpa only [BitVec.getLsbD_extractLsb', Nat.add_sub_cancel' above, Nat.sub_lt_left_of_lt_add above below,
    decide_true, Bool.true_and] using bit

/-- The reserved bits of a format are the ranges R91 lists. -/
theorem getLsbD_reserved {f : Format} {k : Nat} (h : Laws.EncodedFields.reservedRange f k) (hk : k < 52) :
    f.reserved.getLsbD k = true := by
  have all : ∀ f : Format, ∀ j : Fin 52, Laws.EncodedFields.reservedRange f j.1 → f.reserved.getLsbD j.1 = true := by
    intro f
    cases f <;> unfold Laws.EncodedFields.reservedRange <;> decide
  exact all f ⟨k, hk⟩ h

/-- A word with no reserved bit set is 0 on the reserved ranges. -/
theorem getLsbD_of_reservedRange {w : CmdWord} {f : Format} {k : Nat} (clear : w &&& f.reserved = 0#64)
    (h : Laws.EncodedFields.reservedRange f k) (hk : k < 52) : w.getLsbD k = false := by
  have bit := congrArg (BitVec.getLsbD · k) clear
  simpa only [BitVec.getLsbD_and, getLsbD_reserved h hk, Bool.and_true, BitVec.getLsbD_zero] using bit

/-- Outside the reserved ranges every operand bit is read: words that read alike agree there (R91). -/
theorem getLsbD_eq_of_readFrom_eq {w v : CmdWord} {i : Instr} (read : i.readFrom w = i.readFrom v) {k : Nat}
    (hk : k < 52) (operand : ¬ Laws.EncodedFields.reservedRange i.format k) : w.getLsbD k = v.getLsbD k := by
  cases i with
  | on =>
    obtain ⟨-, vel, harm⟩ := Instr.on.inj read
    change ¬((8 ≤ k ∧ k < 16) ∨ (32 ≤ k ∧ k < 52)) at operand
    by_cases low : k < 8
    · exact getLsbD_eq_of_extractLsb'_eq vel (by omega) (by omega)
    · exact getLsbD_eq_of_extractLsb'_eq harm (by omega) (by omega)
  | off =>
    obtain ⟨-, vel⟩ := Instr.off.inj read
    change ¬(8 ≤ k ∧ k < 52) at operand
    exact getLsbD_eq_of_extractLsb'_eq vel (by omega) (by omega)
  | submit =>
    obtain ⟨-, buf⟩ := Instr.submit.inj read
    change ¬(1 ≤ k ∧ k < 52) at operand
    exact getLsbD_eq_of_extractLsb'_eq buf (by omega) (by omega)
  | set =>
    obtain ⟨-, period, amp, inv⟩ := Instr.set.inj read
    change ¬(48 ≤ k ∧ k < 51) at operand
    rcases (by omega : k < 32 ∨ (32 ≤ k ∧ k < 48) ∨ k = 51) with low | middle | rfl
    · exact getLsbD_eq_of_extractLsb'_eq period (by omega) (by omega)
    · exact getLsbD_eq_of_extractLsb'_eq amp (by omega) (by omega)
    · exact inv
  | read =>
    obtain ⟨-, reg⟩ := Instr.read.inj read
    change ¬(8 ≤ k ∧ k < 52) at operand
    exact getLsbD_eq_of_extractLsb'_eq reg (by omega) (by omega)
  | rdbuf =>
    obtain ⟨-, buf, index⟩ := Instr.rdbuf.inj read
    change ¬(33 ≤ k ∧ k < 52) at operand
    by_cases low : k < 32
    · exact getLsbD_eq_of_extractLsb'_eq index (by omega) (by omega)
    · exact getLsbD_eq_of_extractLsb'_eq buf (by omega) (by omega)
  | update | request | fill | cal => exact absurd hk operand

/-- No two words decode to the same command: every bit is fixed by OP, by CH, by an operand or as reserved (R90, R91). -/
theorem decode_injective {w v : CmdWord} {i : Instr} (hw : decode w = .ok i) (hv : decode v = .ok i) : w = v := by
  obtain ⟨opW, readW, clearW⟩ := decode_eq_ok_iff.1 hw
  obtain ⟨opV, readV, clearV⟩ := decode_eq_ok_iff.1 hv
  have read : i.readFrom w = i.readFrom v := readW.trans readV.symm
  have ch : chField w = chField v := by simpa using congrArg Instr.ch read
  apply BitVec.eq_of_getLsbD_eq
  intro k hk
  by_cases op : 60 ≤ k
  · exact getLsbD_eq_of_extractLsb'_eq (opW.trans opV.symm) op (by omega)
  by_cases header : 52 ≤ k
  · exact getLsbD_eq_of_extractLsb'_eq ch header (by omega)
  have operandBits : k < 52 := by omega
  by_cases reserved : Laws.EncodedFields.reservedRange i.format k
  · rw [getLsbD_of_reservedRange clearW reserved operandBits, getLsbD_of_reservedRange clearV reserved operandBits]
  · exact getLsbD_eq_of_readFrom_eq read operandBits reserved

/-- Settles O2: the word and its command's encoding decode to the same command. -/
theorem decodedWordIsItsEncoding : Obligations.DecodedWordIsItsEncoding :=
  fun _ i h => decode_injective (decodeOfEncode i) h

/-- Settles O3, by evaluating the decoder on the eleven words. -/
theorem exampleWordsDecode : Obligations.ExampleWordsDecode := by
  unfold Obligations.ExampleWordsDecode
  decide

/-! ## The opcode table -/

/-- The row of opcode_table.json a command has: OP and its format's reserved bits are fixed, OP to its opcode. -/
def Instr.row (i : Instr) : OpcodeRow :=
  ⟨i.mnemonic, i.opcode ++ 0#60, 0xF#4 ++ i.format.reserved.extractLsb' 0 60⟩

/-- The table is the rows of the ten commands. -/
theorem mem_opcodeRows_iff {r : OpcodeRow} : r ∈ opcodeRows ↔ ∃ i : Instr, i.row = r := by
  have table : opcodeRows = oneOfEach.map Instr.row := by decide
  rw [table]
  constructor
  · intro h
    obtain ⟨i, -, row⟩ := List.mem_map.1 h
    exact ⟨i, row⟩
  · rintro ⟨i, rfl⟩
    have place : (oneOfEach.map Instr.row)[i.opcode.toNat - 1]? = some i.row := by cases i <;> rfl
    exact List.mem_of_getElem? place

/-- Two words of the same layout are equal field by field. -/
theorem append_eq_append_iff {m n : Nat} {x u : BitVec m} {y v : BitVec n} : x ++ y = u ++ v ↔ x = u ∧ y = v := by
  constructor
  · intro h
    exact ⟨by simpa only [BitVec.extractLsb'_append_eq_left] using congrArg (BitVec.extractLsb' n m) h,
      by simpa only [BitVec.extractLsb'_append_eq_right] using congrArg (BitVec.extractLsb' 0 n) h⟩
  · rintro ⟨rfl, rfl⟩
    rfl

/-- A word matches a command's row exactly when it holds the command's opcode and no reserved bit of its format: OP and the
reserved bits are masked apart. -/
theorem and_row_mask_eq_pattern_iff {w : CmdWord} {i : Instr} :
    w &&& i.row.mask = i.row.pattern ↔ opField w = i.opcode ∧ w &&& i.format.reserved = 0#64 := by
  have word : opField w ++ w.extractLsb' 0 60 = w := BitVec.extractLsb'_append_extractLsb'
  have reserved : 0#4 ++ i.format.reserved.extractLsb' 0 60 = i.format.reserved := by cases i.format <;> decide
  have zero : 0#64 = 0#4 ++ 0#60 := by decide
  have listed : w &&& i.row.mask = opField w ++ (w.extractLsb' 0 60 &&& i.format.reserved.extractLsb' 0 60) := by
    conv_lhs => rw [← word]
    exact BitVec.and_append.trans (congrArg (· ++ _) BitVec.and_allOnes)
  have unread : w &&& i.format.reserved = 0#4 ++ (w.extractLsb' 0 60 &&& i.format.reserved.extractLsb' 0 60) := by
    conv_lhs => rw [← word, ← reserved]
    exact BitVec.and_append.trans (congrArg (· ++ _) BitVec.and_zero)
  rw [listed, unread, Instr.row, zero, append_eq_append_iff, append_eq_append_iff, eq_self, true_and]

/-- Settles O4: both sides say that w holds the opcode of a command of mnemonic m and none of its reserved bits. -/
theorem decoderAgreesWithOpcodeTable : Obligations.DecoderAgreesWithOpcodeTable := by
  intro w m
  constructor
  · rintro ⟨i, decoded, rfl⟩
    obtain ⟨op, -, clear⟩ := decode_eq_ok_iff.1 decoded
    exact ⟨i.row, mem_opcodeRows_iff.2 ⟨i, rfl⟩, rfl, and_row_mask_eq_pattern_iff.2 ⟨op, clear⟩⟩
  · rintro ⟨r, row, rfl, fits⟩
    obtain ⟨i, rfl⟩ := mem_opcodeRows_iff.1 row
    obtain ⟨op, clear⟩ := and_row_mask_eq_pattern_iff.1 fits
    refine ⟨i.readFrom w, ?_, i.readFrom_mnemonic w⟩
    rw [decode_eq_checkReserved op, checkReserved, if_pos clear]

end Sys2Proof
end

section
/-! PROOFS. Which command words the block executes as ILLEGAL (30_encoding.md R94 to R96), and that the host's next word runs
as the command it decodes to (R97, R103). -/

namespace Sys2Proof.Machine

/-- A word that is no command is ILLEGAL (60_exceptions.md R201). -/
theorem runCommand_of_error {w : CmdWord} {e : DecodeError} (h : decode w = .error e) (s : State) :
    runCommand w s = .next (s.raise .illegal 0) := by
  simp only [runCommand, h]

/-- A word that decodes runs as its command. -/
theorem runCommand_of_ok {w : CmdWord} {i : Instr} (h : decode w = .ok i) (s : State) : runCommand w s = exec i s := by
  simp only [runCommand, h]

/-- Settles O5: a reserved opcode is no command's. -/
theorem reservedOpcodeIsIllegal : Obligations.ReservedOpcodeIsIllegal :=
  fun _ s op => runCommand_of_error (decode_reservedOpcode op) s

/-- Settles O6: the rows are the opcodes and reserved bits of the ten commands. -/
theorem reservedBitIsIllegal : Obligations.ReservedBitIsIllegal := by
  intro w s op reserved row opW bit
  have row : (op, reserved) ∈ oneOfEach.map fun i => (i.opcode, i.format.reserved) := row
  obtain ⟨i, -, pair⟩ := List.mem_map.1 row
  obtain ⟨rfl, rfl⟩ := Prod.mk.inj pair
  exact runCommand_of_error (decode_reservedBit opW bit) s

/-- The rule of a command whose operand check fails refuses it on every channel (R97 step 4). -/
theorem commandRule_of_operandOk_false {s : State} {i : Instr} (h : i.operandOk s.block.bufLen = false) (c : Chan) :
    commandRule s i c = .refuse .illegal := by
  cases i with
  | read ch reg =>
    have unassigned : regOfIndex reg = none := List.getElem?_eq_none (Nat.not_lt.1 (of_decide_eq_false h))
    simp only [commandRule, readRule, unassigned]
  | rdbuf ch buf index =>
    have outside : c.memRead s.block.bufLen buf index.toNat = none := if_neg (of_decide_eq_false h)
    simp only [commandRule, rdbufRule, outside]
  | on | off | update | request | fill | submit | set | cal => cases h

/-- An ill-formed command is ILLEGAL (R96). -/
theorem exec_of_not_wellFormed {s : State} {i : Instr} (h : ¬ i.WellFormed s.chans.length s.block.bufLen) :
    exec i s = .next (s.raise .illegal i.ch.toNat) := by
  rw [exec_eq_onChannel]
  cases hc : s.chans[i.ch.toNat]? with
  | none => exact onChannel_none hc
  | some c =>
    have channel : i.ChannelExists s.chans.length := (List.getElem?_eq_some_iff.1 hc).1
    have operand : i.operandOk s.block.bufLen = false := Bool.eq_false_of_not_eq_true fun ok => h ⟨channel, ok⟩
    rw [onChannel_some hc, commandRule_of_operandOk_false operand]

/-- Settles O7: each of the commands named is ill-formed. -/
theorem missingChannelRegisterOrSampleIsIllegal : Obligations.MissingChannelRegisterOrSampleIsIllegal := by
  intro s
  refine ⟨?channel, ?register, ?sample, fun i ill => exec_of_not_wellFormed ill⟩
  case channel => exact fun i missing => exec_of_not_wellFormed fun wf => Nat.not_lt.2 missing wf.1
  case register =>
    exact fun ch reg unassigned => exec_of_not_wellFormed fun wf => Nat.not_lt.2 unassigned (of_decide_eq_true wf.2)
  case sample =>
    exact fun ch buf index outside => exec_of_not_wellFormed fun wf => Nat.not_lt.2 outside (of_decide_eq_true wf.2)

/-- A command word taken by a well-formed block runs as the command it decodes to (R103). -/
theorem agentStep_command {s : State} {w : CmdWord} {i : Instr} (valid : s.config.Valid) (decoded : decode w = .ok i) :
    agentStep (.command w) s = exec i s :=
  (agentStep_of_valid valid).trans (runCommand_of_ok decoded s)

/-- Settles O8: the step is the agent step of the word at the head of the list. -/
theorem stepRunsTheDecodedCommand : Obligations.StepRunsTheDecodedCommand := by
  intro s w rest i valid pending decoded
  rw [step_eq_agentStep pending]
  exact agentStep_command valid decoded

/-- Settles O9: the word placed is the encoded word, which decodes to its command. -/
theorem placedWordRunsItsCommand : Obligations.PlacedWordRunsItsCommand := by
  intro s i valid
  have word : BitVec.ofNat 64 ((encode i).toNat % 2 ^ 64) = encode i := by
    rw [Nat.mod_eq_of_lt (encode i).isLt, BitVec.ofNat_toNat, BitVec.setWidth_eq]
  rw [State.withFetchWord, word]
  exact agentStep_command valid (decodeOfEncode i)

end Sys2Proof.Machine
end

section
/-! PROOFS. The rules of the pipeline (40_pipeline.md R111 to R114), each as the one equation of its command, and what the
commands leave unchanged. -/

namespace Sys2Proof.Machine

/-! ## How a command ends -/

/-- A command whose rule responds leaves its channel and its response (30_encoding.md R101). -/
theorem onChannel_done {ch : ChanIdx} {s : State} {rule : Chan → Reply} {c c' : Chan} {r : Response}
    (hc : s.chans[ch.toNat]? = some c) (h : rule c = .done c' r) :
    onChannel ch s rule = .next (s.finish ch.toNat c' r) := by
  rw [onChannel_some hc, h]

/-- A command whose rule refuses it raises its fault (60_exceptions.md R201). -/
theorem onChannel_refuse {ch : ChanIdx} {s : State} {rule : Chan → Reply} {c : Chan} {k : FaultKind}
    (hc : s.chans[ch.toNat]? = some c) (h : rule c = .refuse k) :
    onChannel ch s rule = .next (s.raise k ch.toNat) := by
  rw [onChannel_some hc, h]

/-- A channel written as it was is no change of the block. -/
theorem set_chan_self {s : State} {n : Nat} {c : Chan} (hc : s.chans[n]? = some c) : s.chans.set n c = s.chans := by
  obtain ⟨_, rfl⟩ := List.getElem?_eq_some_iff.1 hc
  exact List.set_getElem_self _

/-- A response that leaves the channel as it was changes RSP alone. -/
theorem finish_self {s : State} {n : Nat} {c : Chan} (hc : s.chans[n]? = some c) (r : Response) :
    s.finish n c r = { s with rsp := r } := by
  rw [State.finish, set_chan_self hc]

/-- A PROTOCOL refusal of a channel that exists sets its sticky bit (60_exceptions.md R201). -/
theorem raise_protocol_eq_finish {s : State} {n : Nat} {c : Chan} (hc : s.chans[n]? = some c) :
    s.raise .protocol n = s.finish n c.setProtocolErr { sts := .protocol, isSome := false, val := 0 } := by
  rw [State.finish, ← (raise_chans_eq_set hc).1]
  rfl

/-- A PRECOND refusal of a channel that exists sets its sticky bit (60_exceptions.md R201). -/
theorem raise_precond_eq_finish {s : State} {n : Nat} {c : Chan} (hc : s.chans[n]? = some c) :
    s.raise .precond n = s.finish n c.setPrecondErr { sts := .precond, isSome := false, val := 0 } := by
  rw [State.finish, ← (raise_chans_eq_set hc).2]
  rfl

/-! ## The two descriptors -/

theorem slot_eq_zero_or_one (d : Slot) : d = 0 ∨ d = 1 := by revert d; decide

/-- A write of a descriptor, as one record: each descriptor takes the value at its own index. -/
theorem setDesc_eq (c : Chan) (d : Slot) (v : Desc) :
    c.setDesc d v = { c with desc0 := if d = 0 then v else c.desc0, desc1 := if d = 1 then v else c.desc1 } := by
  rcases slot_eq_zero_or_one d with rfl | rfl <;> rfl

/-- Reclaiming, as one record (R111). -/
theorem reclaim_eq (c : Chan) :
    reclaim c = { c with
      tcf := false
      desc0 := if c.doneIdx = 0 then { c.desc0 with valid := false } else c.desc0
      desc1 := if c.doneIdx = 1 then { c.desc1 with valid := false } else c.desc1 } := by
  rw [reclaim, setDesc_eq]
  rcases slot_eq_zero_or_one c.doneIdx with h | h <;> simp [h, Chan.desc]

/-- Reclaiming keeps the buffer each descriptor points at (R111). -/
theorem desc_reclaim_keeps_buf (c : Chan) (d : Slot) :
    (reclaim c).desc d = { c.desc d with valid := ((reclaim c).desc d).valid } := by
  rw [desc_reclaim]
  split <;> rfl

/-- Queueing, as one record: the idle descriptor is the one that is not ACTIVE (R112). -/
theorem queueBuffer_eq (bufLen : Nat) (buf : Slot) (c : Chan) :
    queueBuffer bufLen buf c = { c with
      desc0 := if c.active = 1 then { valid := true, buf := buf } else c.desc0
      desc1 := if c.active = 0 then { valid := true, buf := buf } else c.desc1
      phase := advancePhase bufLen c.cfg.spacing c.phase c.tgtPeriod
      nextValid := true } := by
  have idle0 : ∀ x : Slot, (otherSlot x = 0) = (x = 1) := by decide
  have idle1 : ∀ x : Slot, (otherSlot x = 1) = (x = 0) := by decide
  simp only [queueBuffer, setDesc_eq, idle0, idle1]

/-! ## REQUEST -/

theorem requestRule_of_no_completion {c : Chan} (h : c.tcf = false) : requestRule c = .done c (okNone 0) := by
  rw [requestRule, if_pos h]

theorem requestRule_of_unqueued {c : Chan} (waiting : c.tcf = true) (unqueued : c.nextValid = false) :
    requestRule c = .done (reclaim c) (okNone 0) := by
  rw [requestRule, if_neg (by simp [waiting]), if_pos unqueued]

theorem requestRule_of_queued {c : Chan} (waiting : c.tcf = true) (queued : c.nextValid = true) :
    requestRule c = .done (handOut (reclaim c)) (okSome (c.curBuf.zeroExtend 64)) := by
  rw [requestRule, if_neg (by simp [waiting]), if_neg (by simp [queued])]

/-- Settles O19: one reply of the rule per case, with the reclaimed channel written out. -/
theorem requestFollowsItsRule : Obligations.RequestFollowsItsRule := by
  intro s ch c r hc hr
  rw [← reclaim_eq] at hr
  subst hr
  refine ⟨rfl, fun free => ?_, fun waiting unqueued => ?_, fun waiting queued => ?_⟩
  · exact (onChannel_done hc (requestRule_of_no_completion free)).trans (congrArg _ (finish_self hc _))
  · exact onChannel_done hc (requestRule_of_unqueued waiting unqueued)
  · refine (onChannel_done hc (requestRule_of_queued waiting queued)).trans ?_
    rw [reclaim_frame]
    rfl

/-- A REQUEST that answers a buffer found a completion and a replacement queued, and answers the buffer vacated (R111). -/
theorem exec_request_isSome {s t : State} {ch : ChanIdx} {c c' : Chan} (hc : s.chans[ch.toNat]? = some c)
    (h : exec (.request ch) s = .next t) (handed : t.rsp.isSome = true) (hc' : t.chans[ch.toNat]? = some c') :
    c.tcf = true ∧ c.nextValid = true ∧ t.rsp.val = c.curBuf.zeroExtend 64 ∧ c' = handOut (reclaim c) := by
  have left {x : Chan} {r : Response} (done : requestRule c = .done x r) : t = s.finish ch.toNat x r :=
    Host.Outcome.next.inj (h.symm.trans (onChannel_done hc done))
  cases waiting : c.tcf with
  | false =>
    rw [left (requestRule_of_no_completion waiting)] at handed
    cases handed
  | true =>
    cases queued : c.nextValid with
    | false =>
      rw [left (requestRule_of_unqueued waiting queued)] at handed
      cases handed
    | true =>
      obtain rfl := left (requestRule_of_queued waiting queued)
      rw [State.finish_chans, List.getElem?_set_self (List.getElem?_eq_some_iff.1 hc).1] at hc'
      exact ⟨rfl, rfl, rfl, (Option.some.inj hc').symm⟩

/-- Settles O28: after the hand-out nothing is queued, so a running engine plays the current buffer, which is the other
one. -/
theorem requestNeverHandsOutAPlayingBuffer : Obligations.RequestNeverHandsOutAPlayingBuffer := by
  intro s t ch c c' hc inv missed h handed hc'
  obtain ⟨waiting, isQueued, val, rfl⟩ := exec_request_isSome hc h handed hc'
  have inv' := handOut_pipelineInv waiting isQueued inv
  have missed' : (handOut (reclaim c)).chErr.missed = false := by rw [reclaim_frame]; exact missed
  have current : (handOut (reclaim c)).curBuf = otherSlot c.curBuf := by rw [reclaim_frame]; rfl
  refine ⟨c.curBuf, val, ?_, ?_, fun running => ?_⟩
  · simp [queued, isQueued]
  · rw [swHeld, current, otherSlot_otherSlot]
    rfl
  · rw [engBuf_of_unqueued inv' missed' rfl running, current]
    exact otherSlot_ne _

/-! ## SUBMIT and SET -/

theorem submitRule_refuse {bufLen : Nat} {buf : Slot} {c : Chan}
    (h : c.nextValid = true ∨ c.frValid = true ∨ buf ≠ otherSlot c.curBuf) :
    submitRule bufLen buf c = .refuse .protocol := by
  rw [submitRule, if_pos h]

theorem submitRule_accept {bufLen : Nat} {buf : Slot} {c : Chan} (unqueued : c.nextValid = false)
    (filled : c.frValid = false) (vacated : buf = otherSlot c.curBuf) (period : c.tgtPeriod ≠ 0) :
    submitRule bufLen buf c = .done (submitted bufLen buf c) (okNone 0) := by
  have nonzero : c.tgtPeriod.toNat ≠ 0 := fun zero => period (BitVec.eq_of_toNat_eq zero)
  rw [submitRule, if_neg (by simp [unqueued, filled, vacated]), if_neg nonzero]
  rfl

/-- Settles O20: the channel after the queueing is written out, and a paused engine fetches from it. -/
theorem submitFollowsItsRule : Obligations.SubmitFollowsItsRule := by
  intro s ch buf c q hc hq
  have hq : q = queueBuffer s.block.bufLen buf c := hq.trans (queueBuffer_eq _ _ _).symm
  refine ⟨rfl, fun refused => ?_, fun unqueued filled vacated period => ?_⟩
  · exact (onChannel_refuse hc (submitRule_refuse refused)).trans (congrArg _ (raise_protocol_eq_finish hc))
  have accepted : exec (.submit ch buf) s = .next (s.finish ch.toNat (submitted s.block.bufLen buf c) (okNone 0)) :=
    onChannel_done hc (submitRule_accept unqueued filled vacated period)
  have ptr : q.engPtr = c.engPtr := by rw [hq]; simp [queueBuffer]
  have run : q.engRun = c.engRun := by rw [hq]; simp [queueBuffer]
  refine ⟨fun running => ?_, fun paused valid => ?_, fun paused invalid => ?_⟩
  · rw [accepted, submitted_of_running running, hq]
    rfl
  · rw [accepted, submitted_of_paused paused, ← hq, fetch_valid valid, ← ptr]
    rfl
  · have stays : fetch q c.engPtr = q := by rw [fetch_invalid invalid, ← ptr, ← run.trans paused]
    rw [accepted, submitted_of_paused paused, ← hq, stays]
    rfl

/-- Settles O21: a period of 0 is refused, any other is written with the other two targets. -/
theorem setFollowsItsRule : Obligations.SetFollowsItsRule := by
  intro s ch period amp inv c hc
  refine ⟨rfl, fun zero => ?_, fun nonzero => ?_⟩
  · have refused : setRule period amp inv c = .refuse .precond := if_pos zero
    exact (onChannel_refuse hc refused).trans (congrArg _ (raise_precond_eq_finish hc))
  · have accepted : setRule period amp inv c = .done (c.setTarget period amp inv) (okNone 0) := if_neg nonzero
    exact onChannel_done hc accepted

/-! ## What they leave unchanged -/

/-- A command of channel n that responds changes that channel alone (30_encoding.md R101). -/
theorem onlyChannel_finish {s : State} {n : Nat} {c c' : Chan} {P : Chan → Chan → Prop} (hc : s.chans[n]? = some c)
    (h : P c c') (r : Response) : onlyChannel n s (s.finish n c' r) P := by
  refine ⟨rfl, rfl, rfl, List.length_set, Or.inl rfl, fun k x x' hx hx' => ?_⟩
  rw [State.finish_chans] at hx'
  split
  next same =>
    subst same
    rw [List.getElem?_set_self (List.getElem?_eq_some_iff.1 hc).1] at hx'
    obtain rfl := Option.some.inj hx'
    obtain rfl := Option.some.inj (hc.symm.trans hx)
    exact h
  next other =>
    rw [List.getElem?_set_ne (Ne.symm other)] at hx'
    exact Option.some.inj (hx'.symm.trans hx)

/-- An ILLEGAL command changes no channel (60_exceptions.md R201). -/
theorem onlyChannel_illegal {s : State} {n : Nat} {P : Chan → Chan → Prop} (refl : ∀ c, P c c) :
    onlyChannel n s (s.raise .illegal n) P := by
  refine ⟨rfl, rfl, rfl, rfl, Or.inr ⟨rfl, rfl⟩, fun k x x' hx hx' => ?_⟩
  obtain rfl := Option.some.inj (hx.symm.trans hx')
  split
  · exact refl x
  · rfl

/-- Every command changes only its own channel, by one of its moves (20_memory.md R84, 60_exceptions.md R213). -/
theorem exec_onlyChannel {i : Instr} {s t : State} {P : Chan → Chan → Prop} (h : exec i s = .next t)
    (move : ∀ c c', CommandStep s c i c' → P c c') : onlyChannel i.ch.toNat s t P := by
  have refl (c : Chan) : P c c := move c c (.unchanged i)
  rw [exec_eq_onChannel] at h
  rcases onChannel_next h with ⟨-, rfl⟩ | ⟨c, hc, ⟨c', r, hr, rfl⟩ | ⟨k, hk, rfl⟩⟩
  · exact onlyChannel_illegal refl
  · exact onlyChannel_finish hc (move c c' (commandRule_done hr)) r
  · cases k with
    | illegal => exact onlyChannel_illegal refl
    | protocol => rw [raise_protocol_eq_finish hc]; exact onlyChannel_finish hc (move c _ (.protocolErr hk)) _
    | precond => rw [raise_precond_eq_finish hc]; exact onlyChannel_finish hc (move c _ (.precondErr hk)) _

/-- REQUEST is never refused on a channel that exists (R111). -/
theorem requestRule_ne_refuse (c : Chan) (k : FaultKind) : requestRule c ≠ .refuse k := by
  unfold requestRule
  split
  · nofun
  · split <;> nofun

/-- The refusals of SUBMIT are PROTOCOL (R112). -/
theorem submitRule_ne_precond (bufLen : Nat) (buf : Slot) (c : Chan) : submitRule bufLen buf c ≠ .refuse .precond := by
  unfold submitRule
  split
  · nofun
  · split <;> nofun

/-- The refusals of SET are PRECOND (R113). -/
theorem setRule_ne_protocol (period : Period) (amp : Sample) (inv : Bool) (c : Chan) :
    setRule period amp inv c ≠ .refuse .protocol := by
  unfold setRule
  split <;> nofun

/-- Settles O24: the frame of each move of the three commands. -/
theorem pipelineCommandsFrame : Obligations.PipelineCommandsFrame := by
  intro s t ch
  refine ⟨fun h => exec_onlyChannel h fun c c' move => ?request, fun buf h => exec_onlyChannel h fun c c' move => ?submit,
    fun period amp inv h => exec_onlyChannel h fun c c' move => ?set⟩
  case request =>
    cases move with
    | unchanged => exact ⟨rfl, fun _ => rfl⟩
    | protocolErr refused | precondErr refused => exact absurd refused (requestRule_ne_refuse c _)
    | envelope entry => cases entry
    | reclaim | handOut =>
      have buf0 : (reclaim c).desc0 = { c.desc0 with valid := (reclaim c).desc0.valid } := desc_reclaim_keeps_buf c 0
      have buf1 : (reclaim c).desc1 = { c.desc1 with valid := (reclaim c).desc1.valid } := desc_reclaim_keeps_buf c 1
      rw [reclaim_frame, buf0, buf1]
      exact ⟨rfl, fun _ => rfl⟩
  case submit =>
    cases move with
    | unchanged | protocolErr => exact ⟨rfl, rfl, fun _ => rfl⟩
    | precondErr refused => exact absurd refused (submitRule_ne_precond _ _ c)
    | envelope entry => cases entry
    | submit =>
      have active : (submitted s.block.bufLen buf c).desc c.active = c.desc c.active := by
        rw [desc_submitted, desc_queueBuffer, if_neg (otherSlot_ne c.active).symm]
      refine ⟨?_, active, fun a => ?_⟩ <;> rw [submitted_frame]
  case set =>
    cases move with
    | unchanged | precondErr | set => exact ⟨rfl, fun _ => rfl⟩
    | protocolErr refused => exact absurd refused (setRule_ne_protocol _ _ _ c)
    | envelope entry => cases entry

end Sys2Proof.Machine
end

section
/-! PROOFS. The transfer engine's trigger event (40_pipeline.md R120 to R124). -/

namespace Sys2Proof.Machine

/-- A trigger event while the engine is paused has no effect (R120, R124). -/
theorem beat_of_paused {bufLen : Nat} {c : Chan} (paused : c.engRun = false) : beat bufLen c = some c := by
  simp [beat, paused]

/-- A beat inside a buffer moves one sample, and completes the descriptor after its last one (R122). -/
theorem beat_of_running {bufLen : Nat} {c : Chan} (running : c.engRun = true) (inside : c.engBeat.toNat < bufLen) :
    beat bufLen c = some (if (c.engBeat + 1).toNat = bufLen then complete (transfer c (nextSample bufLen c))
      else transfer c (nextSample bufLen c)) := by
  have sample : c.memRead bufLen c.engBuf c.engBeat.toNat = some (nextSample bufLen c) := if_pos inside
  have counted : (transfer c (nextSample bufLen c)).engBeat = c.engBeat + 1 := rfl
  simp only [beat, if_pos running, beatRunning, sample, counted]
  split <;> rfl

/-- A completion runs the other descriptor from its buffer's first sample, where that one is valid (R121, R123). -/
theorem complete_of_next_valid {c : Chan} (h : (c.desc (otherSlot c.engPtr)).valid = true) :
    complete c = { c with
      tcf := true
      doneIdx := c.engPtr
      chErr := { c.chErr with missed := c.chErr.missed || c.tcf }
      engPtr := otherSlot c.engPtr
      engRun := true
      engBuf := (c.desc (otherSlot c.engPtr)).buf
      engBeat := 0 } := by
  rw [complete_eq]
  exact fetch_valid h

/-- A completion pauses at the other descriptor, where that one is not valid (R121, R123). -/
theorem complete_of_next_invalid {c : Chan} (h : (c.desc (otherSlot c.engPtr)).valid = false) :
    complete c = { c with
      tcf := true
      doneIdx := c.engPtr
      chErr := { c.chErr with missed := c.chErr.missed || c.tcf }
      engPtr := otherSlot c.engPtr
      engRun := false } := by
  rw [complete_eq]
  exact fetch_invalid h

/-- The step of a block whose next agent step is a trigger event of a channel that exists. -/
theorem step_beat {s : State} {ch : ChanIdx} {rest : List Event} {c c' : Chan} (valid : s.config.Valid)
    (pending : s.pending = .beat ch :: rest) (hc : s.chans[ch.toNat]? = some c)
    (moved : beat s.block.bufLen c = some c') :
    step s = .next { s with pending := rest, chans := s.chans.set ch.toNat c' } := by
  rw [step_of_valid valid, runPending, pending]
  simp only [runEvent, runBeat, hc, moved]

/-- Settles O23: the channel is written as it was. -/
theorem pausedTriggerHasNoEffect : Obligations.PausedTriggerHasNoEffect := by
  intro s ch rest c valid pending hc paused
  rw [step_beat valid pending hc (beat_of_paused paused), set_chan_self hc]

/-- Settles O22: BUF_LEN fits ENG_BEAT, so the beat count does not wrap; the last beat completes the descriptor. -/
theorem beatMovesOneSample : Obligations.BeatMovesOneSample := by
  intro s ch rest c d v valid pending hc running inside hv hd
  have hv : v = nextSample s.block.bufLen c := hv
  have count : BitVec.ofNat 32 (c.engBeat.toNat + 1) = c.engBeat + 1 := by bv_omega
  have noWrap : (c.engBeat + 1).toNat = c.engBeat.toNat + 1 := by
    obtain ⟨⟨-, fits⟩, -⟩ := valid
    have fits : s.block.bufLen < 2 ^ 32 := fits
    bv_omega
  have moved := step_beat valid pending hc (beat_of_running running inside)
  rw [noWrap, ← hv] at moved
  rw [count] at hd ⊢
  subst hd
  refine ⟨fun inner => ?_, fun last nextValid => ?_, fun last nextInvalid => ?_⟩
  · rw [moved, if_neg inner]
    rfl
  · rw [moved, if_pos last, complete_of_next_valid (c := transfer c v) nextValid]
    rfl
  · rw [moved, if_pos last, complete_of_next_invalid (c := transfer c v) nextInvalid]
    rfl

end Sys2Proof.Machine
end

section
/-! PROOFS. The phase (40_pipeline.md R128): the arithmetic of its advances, and along a run. -/

namespace Sys2Proof.Machine

/-! ## The arithmetic -/

/-- The advanced phase is the exact remainder: it fits its register (R112). -/
theorem toNat_advancePhase {bufLen : Nat} {spacing phase period : Period} (nonzero : period.toNat ≠ 0) :
    (advancePhase bufLen spacing phase period).toNat = (phase.toNat + bufLen * spacing.toNat) % period.toNat := by
  have below : (phase.toNat + bufLen * spacing.toNat) % period.toNat < 2 ^ 32 :=
    (Nat.mod_lt _ (Nat.pos_of_ne_zero nonzero)).trans period.isLt
  rw [advancePhase, BitVec.toNat_ofNat, Nat.mod_eq_of_lt below]

/-- One more buffer: the phase of k buffers advances to that of k + 1 (R128). -/
theorem advancePhase_of_buffers {bufLen k : Nat} {spacing phase period : Period} (nonzero : period.toNat ≠ 0)
    (h : phase.toNat = (k * bufLen * spacing.toNat) % period.toNat) :
    (advancePhase bufLen spacing phase period).toNat = ((k + 1) * bufLen * spacing.toNat) % period.toNat := by
  rw [toNat_advancePhase nonzero, h, Nat.mod_add_mod, Nat.add_mul, Nat.add_mul, Nat.one_mul]

/-- Settles O26, by induction on the number of advances. -/
theorem phaseAdvancesAddUpModuloThePeriod : Obligations.PhaseAdvancesAddUpModuloThePeriod := by
  intro bufLen n spacing period nonzero
  have nonzero : period.toNat ≠ 0 := fun zero => nonzero (BitVec.eq_of_toNat_eq zero)
  induction n with
  | zero => simp
  | succ n ih =>
    rw [Function.iterate_succ_apply']
    exact advancePhase_of_buffers nonzero ih

/-! ## One step -/

/-- A step from c to c' that submits a buffer: NEXT_VALID rises (R112). -/
def submits (c c' : Chan) : Bool := !c.nextValid && c'.nextValid

/-- A step that keeps NEXT_VALID submits nothing. -/
theorem submits_of_kept {c c' : Chan} (h : c'.nextValid = c.nextValid) : submits c c' = false := by
  rw [submits, h, Bool.not_and_self]

/-- A step that leaves NEXT_VALID at 0 submits nothing. -/
theorem submits_of_cleared {c c' : Chan} (h : c'.nextValid = false) : submits c c' = false := by
  rw [submits, h, Bool.and_false]

/-- What a step does to the phase: it advances at a submit, and stays otherwise (R112, R128). -/
abbrev PhaseStep (bufLen : Nat) (c c' : Chan) : Prop :=
  (submits c c' = true ∧ c.tgtPeriod.toNat ≠ 0 ∧
    c'.phase = advancePhase bufLen c.cfg.spacing c.phase c.tgtPeriod) ∨
  (submits c c' = false ∧ c'.phase = c.phase)

theorem CommandStep.phaseStep {s : State} {i : Instr} {c c' : Chan} (h : CommandStep s c i c') :
    PhaseStep s.block.bufLen c c' := by
  cases h with
  | submit ch buf unqueued _ _ period =>
    rw [submitted_frame]
    exact Or.inl ⟨by simp [submits, unqueued], period, rfl⟩
  | envelope entry target => rw [envelope_frame entry target]; exact Or.inr ⟨submits_of_kept rfl, rfl⟩
  | reclaim => rw [reclaim_frame]; exact Or.inr ⟨submits_of_kept rfl, rfl⟩
  | handOut => rw [reclaim_frame]; exact Or.inr ⟨submits_of_cleared rfl, rfl⟩
  | unchanged | protocolErr | precondErr | set | fill | ack | blend => exact Or.inr ⟨submits_of_kept rfl, rfl⟩

theorem ChanStep.phaseStep {s : State} {n : Nat} {c c' : Chan} (h : ChanStep s n c c')
    (noReset : s.pending.head? ≠ some .reset) : PhaseStep s.block.bufLen c c' := by
  cases h with
  | command _ _ _ move => exact move.phaseStep
  | complete => rw [complete_frame]; exact Or.inr ⟨submits_of_kept rfl, rfl⟩
  | reset head => exact absurd head noReset
  | unchanged | transfer | capture => exact Or.inr ⟨submits_of_kept rfl, rfl⟩

/-! ## A run -/

/-- The submits of the first m steps of a channel's history. -/
def submitCount (c : Nat → Chan) (m : Nat) : Nat :=
  ((List.range m).filter fun i => submits (c i) (c (i + 1))).length

theorem submitCount_succ (c : Nat → Chan) (m : Nat) :
    submitCount c (m + 1) = submitCount c m + (submits (c m) (c (m + 1))).toNat := by
  rw [submitCount, List.range_succ, List.filter_append, List.length_append]
  cases h : submits (c m) (c (m + 1)) <;> simp [submitCount, h]

/-- A run starts at phase 0 on every channel (70_reset_and_hazards.md R230). -/
theorem phase_at_start {s : State} {n : Nat} {c : Chan} (start : IsStart s) (hc : s.chans[n]? = some c) :
    c.phase = 0 := by
  obtain ⟨-, -, atReset, -⟩ := start
  have kept : (s.chans.map resetChannel)[n]? = s.chans[n]? := congrArg (fun x : State => x.chans[n]?) atReset
  rw [List.getElem?_map, hc] at kept
  rw [← Option.some.inj kept]
  rfl

/-- A step of a run moves each channel by one move of the agent chosen, and keeps the block's parameters (R211). -/
theorem chanStep_of_run {len : Option Nat} {s : Nat → State} {e : Nat → Event} {i n : Nat} {c c' : Chan}
    (run : IsRun len s e) (hi : hasStep len i) (hc : (s i).chans[n]? = some c) (hc' : (s (i + 1)).chans[n]? = some c') :
    (s (i + 1)).block = (s i).block ∧ ChanStep (placeEvent (e i) (s i)) n c c' := by
  have h := (run.2 i hi).2
  exact ⟨(step_chans h).1, chanStep_of_step h hc hc'⟩

section
variable {len : Option Nat} {s : Nat → State} {e : Nat → Event} {n m : Nat} {c : Nat → Chan}

/-- BUF_LEN and a channel's constants are the same at every cut of a run (10_state.md R21). -/
theorem constants_of_run (run : IsRun len s e) (state : hasState len m)
    (chan : ∀ i, i ≤ m → (s i).chans[n]? = some (c i)) :
    (s m).block = (s 0).block ∧ (c m).cfg = (c 0).cfg := by
  induction m with
  | zero => exact ⟨rfl, rfl⟩
  | succ m ih =>
    obtain ⟨block, cfg⟩ := ih (fun l hl => Nat.le_of_succ_le (state l hl)) fun i hi => chan i (Nat.le_succ_of_le hi)
    obtain ⟨block', move⟩ := chanStep_of_run run (fun l hl => state l hl) (chan m (Nat.le_succ m)) (chan (m + 1) le_rfl)
    exact ⟨block'.trans block, move.keeps_cfg.trans cfg⟩

/-- R128 at a cut of a run, by induction on the steps before it: each submit advances the phase by one buffer. -/
theorem phase_of_run {p : Period} (run : IsRun len s e) (state : hasState len m)
    (chan : ∀ i, i ≤ m → (s i).chans[n]? = some (c i)) (period : ∀ i, i ≤ m → (c i).tgtPeriod = p)
    (noReset : ∀ i, i < m → e i ≠ .reset) :
    (c m).phase.toNat = (submitCount c m * (s 0).block.bufLen * (c 0).cfg.spacing.toNat) % p.toNat := by
  induction m with
  | zero => simp [phase_at_start run.1 (chan 0 le_rfl), submitCount]
  | succ m ih =>
    have hasNext : hasStep len m := fun l hl => state l hl
    have state : hasState len m := fun l hl => Nat.le_of_succ_le (state l hl)
    have before (i : Nat) (hi : i ≤ m) : (s i).chans[n]? = some (c i) := chan i (Nat.le_succ_of_le hi)
    have ih := ih state before (fun i hi => period i (Nat.le_succ_of_le hi)) fun i hi => noReset i (Nat.lt_succ_of_lt hi)
    obtain ⟨block, cfg⟩ := constants_of_run run state before
    obtain ⟨-, move⟩ := chanStep_of_run run hasNext (chan m (Nat.le_succ m)) (chan (m + 1) le_rfl)
    have head : (placeEvent (e m) (s m)).pending.head? ≠ some .reset := by simpa using noReset m (Nat.lt_succ_self m)
    rw [submitCount_succ]
    rcases move.phaseStep head with ⟨rises, nonzero, advanced⟩ | ⟨stays, kept⟩
    · rw [period m (Nat.le_succ m)] at nonzero advanced
      rw [advanced, rises, placeEvent_block, block, cfg]
      exact advancePhase_of_buffers nonzero ih
    · rw [kept, stays]
      exact ih
end

/-- Settles O58: the submits counted are the rises of NEXT_VALID. -/
theorem phaseFollowsTheSubmitsOfARun : Obligations.PhaseFollowsTheSubmitsOfARun := by
  intro len s e n m c p run state chan noReset
  exact phase_of_run run state (fun i hi => (chan i hi).1) (fun i hi => (chan i hi).2) noReset

end Sys2Proof.Machine
end

section
/-! PROOFS. Buffer synthesis (41_synthesis.md R140 to R143): the square wave, its continuity and its duty, and FILL. -/

namespace Sys2Proof.Machine

/-! ## The square wave -/

/-- The polarity of a sample, said without Booleans: high where exactly one of "the time is past half the period" and
"inverted" holds (R140). -/
theorem synthSample_eq (p : Period) (a : Sample) (inv : Bool) (f s : Period) (i : Nat) :
    synthSample p a inv f s i = if ¬(p.toNat < 2 * synthTime p f s i ↔ inv = true) then a else 0 := by
  cases inv <;> simp [synthSample]

/-- With an amplitude other than 0 a sample shows its polarity (R140). -/
theorem synthSample_eq_amp_iff {p : Period} {a : Sample} (audible : a ≠ 0) (inv : Bool) (f s : Period) (i : Nat) :
    synthSample p a inv f s i = a ↔ ¬(p.toNat < 2 * synthTime p f s i ↔ inv = true) := by
  rw [synthSample_eq]
  split
  next high => exact iff_of_true rfl high
  next low => exact iff_of_false audible.symm low

/-- At spacing 1 and phase 0 the times of the first period are the indices (R142). -/
theorem synthTime_of_lt {p : Period} {i : Nat} (h : i < p.toNat) : synthTime p 0 1 i = i := by
  simp [synthTime, Nat.mod_eq_of_lt h]

/-- The times from the advanced phase are those BUF_LEN samples on (R112, R143). -/
theorem synthTime_advancePhase {p : Period} (nonzero : p.toNat ≠ 0) (bufLen : Nat) (f s : Period) (i : Nat) :
    synthTime p (advancePhase bufLen s f p) s i = synthTime p f s (bufLen + i) := by
  rw [synthTime, toNat_advancePhase nonzero, Nat.mod_add_mod, Nat.add_assoc, ← Nat.add_mul, synthTime]

/-- Settles O32: a sample depends on phase and index through its time alone. -/
theorem synthesisContinuesAcrossBuffers : Obligations.SynthesisContinuesAcrossBuffers := by
  intro bufLen i p f sp a inv period
  have nonzero : p.toNat ≠ 0 := fun zero => period (BitVec.eq_of_toNat_eq zero)
  rw [synthSample, synthSample, synthTime_advancePhase nonzero]

/-! ## Its duty over one period -/

theorem length_filter_ge_range (k n : Nat) : ((List.range n).filter fun i => k ≤ i).length = n - k := by
  rw [← List.Ico.zero_bot, List.Ico.filter_le, List.Ico.length, Nat.zero_max]

theorem length_filter_lt_range (k n : Nat) : ((List.range n).filter fun i => i < k).length = min n k := by
  rw [← List.Ico.zero_bot, List.Ico.filter_lt, List.Ico.length, Nat.sub_zero]

/-- Settles O33: of the indices of one period those from `P div 2 + 1` up are high, inverted those below it. -/
theorem synthesisDutyOverOnePeriod : Obligations.SynthesisDutyOverOnePeriod := by
  intro p a period audible
  have nonzero : p.toNat ≠ 0 := fun zero => period (BitVec.eq_of_toNat_eq zero)
  have polarity (inv : Bool) (i : Nat) (hi : i ∈ List.range p.toNat) :
      synthSample p a inv 0 1 i = a ↔ ¬(p.toNat < 2 * i ↔ inv = true) := by
    rw [synthSample_eq_amp_iff audible, synthTime_of_lt (List.mem_range.1 hi)]
  constructor
  · have high (i : Nat) (hi : i ∈ List.range p.toNat) :
        decide (synthSample p a false 0 1 i = a) = decide (p.toNat / 2 + 1 ≤ i) := by
      rw [decide_eq_decide, polarity false i hi]
      simp only [Bool.false_eq_true, iff_false, not_not]
      omega
    rw [List.filter_congr high, length_filter_ge_range]
    omega
  · have high (i : Nat) (hi : i ∈ List.range p.toNat) :
        decide (synthSample p a true 0 1 i = a) = decide (i < p.toNat / 2 + 1) := by
      rw [decide_eq_decide, polarity true i hi]
      simp only [iff_true]
      omega
    rw [List.filter_congr high, length_filter_lt_range]
    omega

/-! ## FILL -/

/-- FILL without an outstanding request is refused (R141). -/
theorem fillRule_refuse {bufLen : Nat} {c : Chan} (h : c.frValid = false) : fillRule bufLen c = .refuse .protocol :=
  if_pos h

/-- FILL of an outstanding request fills the SW-held buffer and consumes the request (R141). -/
theorem fillRule_accept {bufLen : Nat} {c : Chan} (outstanding : c.frValid = true) (period : c.frPeriod ≠ 0) :
    fillRule bufLen c = .done { c with
        mem := fillUpTo bufLen (otherSlot c.curBuf) (requestSample c) c.mem bufLen
        frValid := false }
      (okSome ((otherSlot c.curBuf).zeroExtend 64)) := by
  have nonzero : c.frPeriod.toNat ≠ 0 := fun zero => period (BitVec.eq_of_toNat_eq zero)
  rw [fillRule, if_neg (by simp [outstanding]), if_neg nonzero]

/-- The refusals of FILL are PROTOCOL (R141). -/
theorem fillRule_ne_precond (bufLen : Nat) (c : Chan) : fillRule bufLen c ≠ .refuse .precond := by
  unfold fillRule
  split
  · nofun
  · split <;> nofun

/-- A filled buffer holds the samples it was filled with. -/
theorem fillUpTo_read_inside {bufLen n i : Nat} {b : Slot} {f : Nat → Sample} {m : Memory} (wf : m.wf) (h : i < n) :
    (fillUpTo bufLen b f m n).read (b.toNat * bufLen + i) = f i := by
  rw [fillUpTo_read bufLen b f m wf, if_pos (by omega), Nat.add_sub_cancel_left]

/-- Filling a buffer leaves the samples outside it as they were. -/
theorem fillUpTo_read_outside {bufLen n a : Nat} {b : Slot} {f : Nat → Sample} {m : Memory} (wf : m.wf)
    (h : ¬(b.toNat * bufLen ≤ a ∧ a < b.toNat * bufLen + n)) : (fillUpTo bufLen b f m n).read a = m.read a := by
  rw [fillUpTo_read bufLen b f m wf, if_neg h]

/-- Settles O30: the new memory is the fill loop's, read back inside and outside the buffer. -/
theorem fillFollowsItsRule : Obligations.FillFollowsItsRule := by
  intro s ch c hc
  refine ⟨rfl, fun noRequest => ?_, fun outstanding period wf => ?_⟩
  · exact (onChannel_refuse hc (fillRule_refuse noRequest)).trans (congrArg _ (raise_protocol_eq_finish hc))
  · refine ⟨_, onChannel_done hc (fillRule_accept outstanding period), fillUpTo_wf _ _ _ _ wf _, fun i hi => ?_,
      fun a outside => fillUpTo_read_outside wf outside⟩
    exact (fillUpTo_read_inside wf hi).trans (synthSample_eq _ _ _ _ _ i)

/-- Settles O31: of the moves of a command FILL takes only its own and the PROTOCOL refusal. -/
theorem fillFrame : Obligations.FillFrame := by
  intro s t ch h
  refine exec_onlyChannel h fun c c' move => ?_
  cases move with
  | unchanged | protocolErr => exact ⟨rfl, fun _ _ _ => rfl⟩
  | precondErr refused => exact absurd refused (fillRule_ne_precond _ c)
  | envelope entry => cases entry
  | fill => exact ⟨rfl, fun wf a outside => fillUpTo_read_outside wf outside⟩

end Sys2Proof.Machine
end

section
/-! PROOFS. The envelope (42_envelope.md R150 to R157): the velocity scaling, what Recompute gives in each state, the rules of
ON, OFF and UPDATE, each as the one equation of its command, and what the commands leave unchanged. -/

namespace Sys2Proof.Machine

/-! ## The velocity -/

/-- The truncated product is at most the amplitude (R152). -/
theorem applyVelocity_quotient_le (a : Sample) (v : Velocity) : a.toNat * min v.toNat 127 / 127 ≤ a.toNat :=
  Nat.div_le_of_le_mul ((Nat.mul_le_mul_left _ (Nat.min_le_right _ _)).trans_eq (Nat.mul_comm _ _))

/-- The product is exact: it never leaves its 16 bits (R152). -/
theorem toNat_applyVelocity (a : Sample) (v : Velocity) :
    (applyVelocity a v).toNat = a.toNat * min v.toNat 127 / 127 := by
  rw [applyVelocity, BitVec.toNat_ofNat, Nat.mod_eq_of_lt ((applyVelocity_quotient_le a v).trans_lt a.isLt)]

/-- From velocity 127 on the amplitude is whole (R152). -/
theorem applyVelocity_of_full {a : Sample} {v : Velocity} (full : 127 ≤ v.toNat) : applyVelocity a v = a := by
  apply BitVec.eq_of_toNat_eq
  rw [toNat_applyVelocity, Nat.min_eq_right full, Nat.mul_div_cancel _ (by decide)]

theorem applyVelocity_mono (a : Sample) {u v : Velocity} (h : u.toNat ≤ v.toNat) :
    (applyVelocity a u).toNat ≤ (applyVelocity a v).toNat := by
  rw [toNat_applyVelocity, toNat_applyVelocity]
  exact Nat.div_le_div_right (Nat.mul_le_mul_left _ (min_le_min_right _ h))

/-- A silent state stays silent at every velocity (R151, R152). -/
@[simp] theorem applyVelocity_zero_left (v : Velocity) : applyVelocity 0 v = 0 := by
  apply BitVec.eq_of_toNat_eq
  simp [toNat_applyVelocity]

@[simp] theorem applyVelocity_zero_right (a : Sample) : applyVelocity a 0 = 0 := by
  apply BitVec.eq_of_toNat_eq
  simp [toNat_applyVelocity]

/-- Settles O17: the quotient fits its register, so each property is one of the quotient. -/
theorem applyVelocityProperties : Obligations.ApplyVelocityProperties := fun a v _ =>
  ⟨toNat_applyVelocity a v, (toNat_applyVelocity a v).trans_le (applyVelocity_quotient_le a v), applyVelocity_of_full,
    applyVelocity_zero_right a, applyVelocity_mono a⟩

/-! ## Recompute in each state -/

/-- In a note state Recompute divides the period by ENV_HARM (R153). -/
theorem recompute_of_note {c : Chan} (note : noteState c.envState) (harm : c.envHarm ≠ 0) :
    recompute c = some (c.setTarget (BitVec.ofNat 32 (c.cfgPeriod.toNat / c.envHarm.toNat))
      (applyVelocity (baseAmp c.cfg c.envState) c.envVel) (decide (c.envState = .release))) := by
  have drive : driveHarm c = c.envHarm := by rcases note with h | h | h <;> simp [driveHarm, h]
  have nonzero : (driveHarm c).toNat ≠ 0 := fun zero => harm (BitVec.eq_of_toNat_eq (drive ▸ zero))
  rw [recompute_of_ne nonzero, drive]

/-- In a state without a note Recompute gives silence at the channel's own period (R153). -/
theorem recompute_of_no_note {c : Chan} (noNote : ¬ noteState c.envState) :
    recompute c = some (c.setTarget c.cfgPeriod 0 false) := by
  obtain ⟨notAttack, notSustain, notRelease⟩ := by simpa only [noteState, not_or] using noNote
  have drive : driveHarm c = 1 := by cases h : c.envState <;> simp_all [driveHarm]
  have base : baseAmp c.cfg c.envState = 0 := by cases h : c.envState <;> simp_all [baseAmp]
  rw [recompute_of_ne (by simp [drive]), drive, base, applyVelocity_zero_left, decide_eq_false notRelease]
  simp

/-- A transition into a state without a note leaves the channel silent at its own period (R153, R157). -/
theorem replyOr_recompute_of_no_note {x : Chan} (noNote : ¬ noteState x.envState) (r : Chan → Response) :
    replyOr (recompute x) r = .done (x.setTarget x.cfgPeriod 0 false) (r (x.setTarget x.cfgPeriod 0 false)) := by
  rw [recompute_of_no_note noNote]
  rfl

/-! ## ON -/

theorem onRule_refuse {now : Instant} {vel : Velocity} {harm : Harmonic} {c : Chan}
    (h : harm = 0 ∨ c.cfgPeriod.toNat / harm.toNat = 0) : onRule now vel harm c = .refuse .precond :=
  if_pos (h.imp_left (congrArg BitVec.toNat))

/-- ON with a harmonic that divides the period is decided by the state (R155). -/
theorem onRule_accept {now : Instant} {vel : Velocity} {harm : Harmonic} {c : Chan} (nonzero : harm ≠ 0)
    (quotient : c.cfgPeriod.toNat / harm.toNat ≠ 0) :
    onRule now vel harm c =
      if c.envState = .attack ∨ c.envState = .sustain then .done c (okNone 0) else startAttack now vel harm c := by
  have accepted : ¬(harm.toNat = 0 ∨ c.cfgPeriod.toNat / harm.toNat = 0) :=
    not_or.2 ⟨fun zero => nonzero (BitVec.eq_of_toNat_eq zero), quotient⟩
  rw [onRule, if_neg accepted]
  cases c.envState <;> rfl

/-- The entry to Attack drives at ON's harmonic and velocity and is not inverted (R153, R155). -/
theorem startAttack_eq {now : Instant} {vel : Velocity} {harm : Harmonic} {c : Chan} (nonzero : harm ≠ 0) :
    startAttack now vel harm c = .done { c with
        envState := .attack
        envVel := vel
        envHarm := harm
        dl := now + c.cfg.attackTime
        dlValid := true
        capie := if c.envState = .sampleFrequency then false else c.capie
        tgtPeriod := BitVec.ofNat 32 (c.cfgPeriod.toNat / harm.toNat)
        tgtAmp := applyVelocity c.cfg.attackAmp vel
        tgtInv := false }
      (okSome (now + c.cfg.attackTime)) := by
  rw [startAttack, recompute_of_note (Or.inl rfl) (by exact nonzero)]
  rfl

/-- Settles O14: the refusal first, then the two states that ignore ON, then the entry to Attack. -/
theorem onFollowsItsRule : Obligations.OnFollowsItsRule := by
  intro s ch vel harm c hc
  refine ⟨rfl, fun refused => ?_, fun nonzero quotient playing => ?_, fun nonzero quotient free => ?_⟩
  · exact (onChannel_refuse hc (onRule_refuse refused)).trans (congrArg _ (raise_precond_eq_finish hc))
  · have ignored := (onRule_accept (now := s.now) (vel := vel) nonzero quotient).trans (if_pos playing)
    exact (onChannel_done hc ignored).trans (congrArg _ (finish_self hc _))
  · have notPlaying : ¬(c.envState = .attack ∨ c.envState = .sustain) := by
      rcases free with h | h | h | h <;> simp [h]
    exact onChannel_done hc (((onRule_accept nonzero quotient).trans (if_neg notPlaying)).trans (startAttack_eq nonzero))

/-! ## OFF -/

theorem offRule_ignored {now : Instant} {c : Chan} (attack : c.envState ≠ .attack) (sustain : c.envState ≠ .sustain) :
    offRule now c = .done c (okNone 0) := by
  unfold offRule
  split
  next h => exact absurd h attack
  next h => exact absurd h sustain
  all_goals rfl

/-- The entry to Release keeps velocity and harmonic and drives inverted (R153, R156). -/
theorem offRule_note {now : Instant} {c : Chan} (note : c.envState = .attack ∨ c.envState = .sustain)
    (harm : c.envHarm ≠ 0) :
    offRule now c = .done { c with
        envState := .release
        dl := now + c.cfg.releaseTime
        dlValid := true
        tgtPeriod := BitVec.ofNat 32 (c.cfgPeriod.toNat / c.envHarm.toNat)
        tgtAmp := applyVelocity c.cfg.releaseAmp c.envVel
        tgtInv := true }
      (okSome (now + c.cfg.releaseTime)) := by
  have enters : offRule now c = startRelease now c := by rcases note with h | h <;> simp only [offRule, h]
  rw [enters, startRelease, recompute_of_note (Or.inr (Or.inr rfl)) (by exact harm)]
  rfl

/-- Settles O15: the two note states OFF ends, and the states that ignore it. -/
theorem offFollowsItsRule : Obligations.OffFollowsItsRule := by
  intro s ch vel c hc
  refine ⟨rfl, fun attack sustain => ?_, fun note harm => ?_⟩
  · exact (onChannel_done hc (offRule_ignored attack sustain)).trans (congrArg _ (finish_self hc _))
  · exact onChannel_done hc (offRule_note note harm)

/-! ## UPDATE -/

/-- UPDATE does nothing without a deadline, before it, and in the two states that have none (R157). -/
theorem updateRule_idle {now : Instant} {c : Chan}
    (h : c.dlValid = false ∨ now.toNat < c.dl.toNat ∨ c.envState = .off ∨ c.envState = .sustain) :
    updateRule now c = .done c (okNone 0) := by
  unfold updateRule
  split
  · rfl
  next pastDeadline =>
    obtain ⟨valid, reached⟩ := not_or.1 pastDeadline
    rcases h with h | h | h | h
    · exact absurd h valid
    · exact absurd (BitVec.lt_def.2 h) reached
    · simp only [updateDue, h]
    · simp only [updateDue, h]

/-- The transition due in Attack: Sustain drives at the note's harmonic, with no deadline (R157). -/
theorem updateDue_attack {c : Chan} (attack : c.envState = .attack) (harm : c.envHarm ≠ 0) :
    updateDue c = .done { c with
        envState := .sustain
        dlValid := false
        tgtPeriod := BitVec.ofNat 32 (c.cfgPeriod.toNat / c.envHarm.toNat)
        tgtAmp := applyVelocity c.cfg.sustainAmp c.envVel
        tgtInv := false }
      (okNone 0) := by
  simp only [updateDue, attack]
  rw [recompute_of_note (Or.inr (Or.inl rfl)) (by exact harm)]
  rfl

/-- Settles O16: the states that wait for nothing, then the due transition of each state that waits. -/
theorem updateFollowsItsRule : Obligations.UpdateFollowsItsRule := by
  intro s ch c hc
  refine ⟨rfl, fun idle => ?_, fun valid reached => ?_⟩
  · exact (onChannel_done hc (updateRule_idle idle)).trans (congrArg _ (finish_self hc _))
  have due {c' : Chan} {r : Response} (h : updateDue c = .done c' r) :
      exec (.update ch) s = .next (s.finish ch.toNat c' r) :=
    onChannel_done hc ((updateRule_due valid reached).trans h)
  refine ⟨fun attack harm => due (updateDue_attack attack harm), fun release unmetered => due ?_,
    fun release metered => due ?_, fun waiting => due ?_, fun sampling => due ?_⟩
  · simp only [updateDue, release, unmetered, Bool.false_eq_true, if_false]
    exact replyOr_recompute_of_no_note (by simp [noteState]) _
  · simp only [updateDue, release, metered, if_true]
    exact replyOr_recompute_of_no_note (by simp [noteState]) _
  · simp only [updateDue, waiting]
    exact replyOr_recompute_of_no_note (by simp [noteState]) _
  · simp only [updateDue, sampling]
    exact replyOr_recompute_of_no_note (by simp [noteState]) _

/-! ## What they leave unchanged -/

theorem replyOr_ne_refuse (o : Option Chan) (r : Chan → Response) (k : FaultKind) : replyOr o r ≠ .refuse k := by
  cases o <;> nofun

/-- The refusals of ON are PRECOND (R155). -/
theorem onRule_ne_protocol (now : Instant) (vel : Velocity) (harm : Harmonic) (c : Chan) :
    onRule now vel harm c ≠ .refuse .protocol := by
  unfold onRule
  split
  · nofun
  · split
    case h_1 | h_2 => nofun
    all_goals exact replyOr_ne_refuse _ _ _

/-- OFF is never refused on a channel that exists (R156). -/
theorem offRule_ne_refuse (now : Instant) (c : Chan) (k : FaultKind) : offRule now c ≠ .refuse k := by
  unfold offRule
  split
  case h_1 | h_2 => exact replyOr_ne_refuse _ _ _
  all_goals nofun

/-- UPDATE is never refused on a channel that exists (R157). -/
theorem updateRule_ne_refuse (now : Instant) (c : Chan) (k : FaultKind) : updateRule now c ≠ .refuse k := by
  unfold updateRule updateDue
  split
  · nofun
  · split
    case h_5 | h_6 => nofun
    case h_2 => split <;> exact replyOr_ne_refuse _ _ _
    all_goals exact replyOr_ne_refuse _ _ _

/-- Settles O18: of the moves of a command the three take only their own transitions and, for ON, the PRECOND refusal. -/
theorem envelopeCommandsFrame : Obligations.EnvelopeCommandsFrame := by
  intro s t ch
  refine ⟨fun vel harm h => exec_onlyChannel h fun c c' move => ?on, fun vel h => exec_onlyChannel h fun c c' move => ?off,
    fun h => exec_onlyChannel h fun c c' move => ?update⟩
  case on =>
    cases move with
    | unchanged | precondErr => exact ⟨rfl, fun _ => rfl⟩
    | protocolErr refused => exact absurd refused (onRule_ne_protocol _ _ _ c)
    | envelope entry recomputed =>
      obtain ⟨-, rfl⟩ := recompute_some recomputed
      cases entry
      exact ⟨rfl, fun _ => rfl⟩
  case off =>
    cases move with
    | unchanged => exact ⟨rfl, fun _ => rfl⟩
    | protocolErr refused | precondErr refused => exact absurd refused (offRule_ne_refuse _ c _)
    | envelope entry recomputed =>
      obtain ⟨-, rfl⟩ := recompute_some recomputed
      cases entry
      exact ⟨rfl, fun _ => rfl⟩
  case update =>
    cases move with
    | unchanged => exact ⟨rfl, fun _ => rfl⟩
    | protocolErr refused | precondErr refused => exact absurd refused (updateRule_ne_refuse _ c _)
    | envelope entry recomputed =>
      have frame := envelope_frame entry recomputed
      exact ⟨frame, fun a => by rw [frame]⟩

end Sys2Proof.Machine
end

section
/-! PROOFS. The calibration filter (43_calibration.md R180 to R186): the outlier test and the blend as arithmetic on naturals,
the reply of CAL in each case, and what CAL leaves unchanged. -/

namespace Sys2Proof.Machine

/-! ## The outlier test -/

theorem absDiff_eq_natAbs (m p : Nat) : absDiff m p = ((m : Int) - p).natAbs := by
  unfold absDiff
  split <;> omega

theorem isOutlier_eq_true_iff {p m : Period} :
    isOutlier p m = true ↔ 10 * ((m.toNat : Int) - p.toNat).natAbs > p.toNat := by
  rw [isOutlier, decide_eq_true_iff, absDiff_eq_natAbs]

theorem isOutlier_eq_false_iff {p m : Period} :
    isOutlier p m = false ↔ 10 * ((m.toNat : Int) - p.toNat).natAbs ≤ p.toNat := by
  rw [isOutlier, decide_eq_false_iff_not, Nat.not_lt, absDiff_eq_natAbs]

/-- Settles O36: a difference is at most the truncated tenth exactly when ten times it is at most the whole. -/
theorem outlierTestIsTheTruncatingTest : Obligations.OutlierTestIsTheTruncatingTest := fun p m =>
  have tenth (d : Nat) : 10 * d ≤ p.toNat ↔ d ≤ p.toNat / 10 := by
    rw [Nat.le_div_iff_mul_le (by decide), Nat.mul_comm]
  ⟨isOutlier_eq_true_iff, isOutlier_eq_false_iff.trans (tenth _)⟩

/-! ## The blend -/

/-- Settles O37: the rounded weighted mean of two periods is at most the larger, and for `1 ≤ P` the sum `9 * P + 5` alone
reaches 10, whatever the sample. -/
theorem blendIsExactAndFits : Obligations.BlendIsExactAndFits := by
  intro p m
  rw [toNat_blend]
  exact ⟨rfl, by omega, fun _ _ => by omega⟩

/-- Settles O38: the blend moves P by `(S - P + 5) div 10`, which is 0 exactly for a difference from -5 to 4. -/
theorem blendConverges : Obligations.BlendConverges := by
  intro p m
  rw [← BitVec.toNat_inj, toNat_blend]
  refine ⟨?fixed, fun below => ?below, fun above => ?above⟩ <;> omega

/-! ## CAL -/

theorem calArmed_eq_true_iff {c : Chan} : calArmed c = true ↔ c.cfg.hasMeter = true ∧ c.envState = .sampleFrequency := by
  rw [calArmed, Bool.and_eq_true, decide_eq_true_iff]

theorem calArmed_eq_false_iff {c : Chan} :
    calArmed c = false ↔ c.cfg.hasMeter = false ∨ c.envState ≠ .sampleFrequency := by
  rw [calArmed, Bool.and_eq_false_iff, decide_eq_false_iff_not]

theorem calRule_of_not_armed {c : Chan} (h : calArmed c = false) : calRule c = .done c (okNone 0) := by
  rw [calRule, if_pos h]

section
variable {c : Chan} (armed : calArmed c = true)
include armed

/-- No capture, and a capture that reports an error, are both a measurement error (R184). -/
theorem calRule_of_error (error : c.meter.capf = false ∨ c.meter.merr = true) :
    calRule c = .done (meterAck c) (okNone 1) := by
  rw [calRule, if_neg (by simp [armed]), if_pos error]

theorem calRule_of_outlier (pending : c.meter.capf = true) (sound : c.meter.merr = false)
    (outlier : isOutlier c.cfgPeriod c.meter.mval = true) : calRule c = .done (meterAck c) (okNone 2) := by
  rw [calRule, if_neg (by simp [armed]), if_neg (by simp [pending, sound]), if_pos outlier]

/-- The period an accepted sample leaves is also the response (R184). -/
theorem calRule_of_accepted (pending : c.meter.capf = true) (sound : c.meter.merr = false)
    (accepted : isOutlier c.cfgPeriod c.meter.mval = false) :
    calRule c = .done { meterAck c with cfgPeriod := blend c.cfgPeriod c.meter.mval }
      (okSome ((blend c.cfgPeriod c.meter.mval).zeroExtend 64)) := by
  rw [calRule, if_neg (by simp [armed]), if_neg (by simp [pending, sound]), if_neg (by simp [accepted])]

end

theorem zeroExtend_blend (p m : Period) :
    (blend p m).zeroExtend 64 = BitVec.ofNat 64 ((9 * p.toNat + m.toNat + 5) / 10) := by
  rw [← toNat_blend, BitVec.ofNat_toNat]

/-- Settles O34: one reply of the rule per case, with the acknowledged channel written out. -/
theorem calFollowsItsRule : Obligations.CalFollowsItsRule := by
  intro s ch c a hc ha
  obtain rfl : a = meterAck c := ha
  refine ⟨rfl, fun notArmed => ?idle, fun metered sampling => ?armed⟩
  case idle =>
    have reply := calRule_of_not_armed (calArmed_eq_false_iff.2 notArmed)
    exact (onChannel_done hc reply).trans (congrArg _ (finish_self hc _))
  case armed =>
    have armed : calArmed c = true := calArmed_eq_true_iff.2 ⟨metered, sampling⟩
    refine ⟨fun error => ?error, fun pending sound => ⟨fun outlier => ?outlier, fun accepted => ?accepted⟩⟩
    case error => exact onChannel_done hc (calRule_of_error armed error)
    case outlier => exact onChannel_done hc (calRule_of_outlier armed pending sound (isOutlier_eq_true_iff.2 outlier))
    case accepted =>
      rw [← zeroExtend_blend]
      exact onChannel_done hc (calRule_of_accepted armed pending sound (isOutlier_eq_false_iff.2 accepted))

/-- CAL is never refused on a channel that exists (R184). -/
theorem calRule_ne_refuse (c : Chan) (k : FaultKind) : calRule c ≠ .refuse k := by
  unfold calRule
  split
  · nofun
  · split
    · nofun
    · split <;> nofun

/-- Settles O35: of the moves of a command CAL takes only the acknowledgement and the blend. -/
theorem calFrame : Obligations.CalFrame := by
  intro s t ch h
  refine exec_onlyChannel h fun c c' move => ?_
  cases move with
  | unchanged | ack | blend => exact ⟨rfl, fun _ => rfl⟩
  | protocolErr refused | precondErr refused => exact absurd refused (calRule_ne_refuse c _)
  | envelope entry => cases entry

end Sys2Proof.Machine
end

section
/-! PROOFS. Register and buffer access (44_access.md R190, R191): the values of the READ map as naturals, the reply of READ
and of RDBUF in each case, and what the two commands leave unchanged. -/

namespace Sys2Proof.Machine

/-! ## The values READ returns -/

theorem toNat_bitVal (b : Bool) : (bitVal b).toNat = b.toNat := by cases b <;> rfl

/-- A descriptor's value: BUF in bit 1 above VALID in bit 0 (10_state.md R46). -/
theorem toNat_descVal (d : Desc) : (descVal d).toNat = 2 * d.buf.toNat + d.valid.toNat := by
  obtain ⟨valid, buf⟩ := d
  revert valid buf
  decide

/-- The value of CH_ERR: MISSED, PRECOND and PROTOCOL from bit 2 down (10_state.md R59). -/
theorem toNat_chErrVal (e : ChErr) :
    (chErrVal e).toNat = 4 * e.missed.toNat + 2 * e.precond.toNat + e.protocol.toNat := by
  obtain ⟨protocol, precond, missed⟩ := e
  revert protocol precond missed
  decide

/-- The READ map of channel c (10_state.md R22): each index with the natural its register is. -/
def readMap (glbErr : Bool) (c : Chan) : List (Nat × Nat) :=
  regMap.zipIdx.map fun (r, index) => (index, (regVal glbErr c r).toNat)

theorem mem_readMap_iff {glbErr : Bool} {c : Chan} {reg : BitVec 8} {v : Nat} :
    (reg.toNat, v) ∈ readMap glbErr c ↔ ∃ r, regOfIndex reg = some r ∧ (regVal glbErr c r).toNat = v := by
  simp [readMap, List.mem_zipIdx_iff_getElem?, regOfIndex]

/-! ## READ and RDBUF -/

theorem readRule_of_assigned {reg : BitVec 8} {r : Reg} (assigned : regOfIndex reg = some r) (glbErr : Bool) (c : Chan) :
    readRule glbErr reg c = .done c (okSome (regVal glbErr c r)) := by
  simp only [readRule, assigned]

theorem rdbufRule_of_lt {bufLen : Nat} {index : BitVec 32} (inside : index.toNat < bufLen) (buf : Slot) (c : Chan) :
    rdbufRule bufLen buf index c = .done c (okSome ((c.mem.read (sampleAddr bufLen buf index.toNat)).zeroExtend 64)) := by
  have sample : c.memRead bufLen buf index.toNat = some (c.mem.read (sampleAddr bufLen buf index.toNat)) := if_pos inside
  simp only [rdbufRule, sample]

/-- The refusals of READ are ILLEGAL (R190). -/
theorem readRule_refuse {glbErr : Bool} {reg : BitVec 8} {c : Chan} {k : FaultKind}
    (h : readRule glbErr reg c = .refuse k) : k = .illegal := by
  unfold readRule at h
  split at h <;> cases h
  rfl

/-- The refusals of RDBUF are ILLEGAL (R191). -/
theorem rdbufRule_refuse {bufLen : Nat} {buf : Slot} {index : BitVec 32} {c : Chan} {k : FaultKind}
    (h : rdbufRule bufLen buf index c = .refuse k) : k = .illegal := by
  unfold rdbufRule at h
  split at h <;> cases h
  rfl

/-- Settles O39: the statement's list is the READ map, and an assigned register is read without a change of its channel. -/
theorem readReturnsTheRegister : Obligations.ReadReturnsTheRegister := by
  intro s ch c reg hc
  obtain ⟨-, unassigned, -, -⟩ := missingChannelRegisterOrSampleIsIllegal s
  refine ⟨rfl, unassigned ch reg, fun v row => ?_⟩
  have row : (reg.toNat, v) ∈ readMap s.glbErr c := by
    convert row using 1
    simp [readMap, regMap, regVal, toNat_bitVal, toNat_descVal, toNat_chErrVal,
      BitVec.toNat_setWidth_of_le, -BitVec.toNat_setWidth]
    -- What is left is the code of ENV_STATE (10_state.md R23).
    cases c.envState <;> rfl
  obtain ⟨r, assigned, rfl⟩ := mem_readMap_iff.1 row
  rw [BitVec.ofNat_toNat, BitVec.setWidth_eq]
  exact (onChannel_done hc (readRule_of_assigned assigned s.glbErr c)).trans (congrArg _ (finish_self hc _))

/-- Settles O40: a sample inside the buffer is read without a change of its channel. -/
theorem rdbufReturnsTheSample : Obligations.RdbufReturnsTheSample := by
  intro s ch c buf index hc
  obtain ⟨-, -, outside, -⟩ := missingChannelRegisterOrSampleIsIllegal s
  refine ⟨rfl, fun inside => ?_, outside ch buf index⟩
  exact (onChannel_done hc (rdbufRule_of_lt inside buf c)).trans (congrArg _ (finish_self hc _))

/-- Settles O41: the two commands have no move but the one that leaves the channel as it was. -/
theorem accessCommandsFrame : Obligations.AccessCommandsFrame := by
  intro s t ch
  refine ⟨fun reg h => exec_onlyChannel h fun c c' move => ?read,
    fun buf index h => exec_onlyChannel h fun c c' move => ?rdbuf⟩
  case read =>
    cases move with
    | unchanged => exact ⟨rfl, fun _ => rfl⟩
    | protocolErr refused | precondErr refused => exact nomatch readRule_refuse refused
    | envelope entry => cases entry
  case rdbuf =>
    cases move with
    | unchanged => exact ⟨rfl, fun _ => rfl⟩
    | protocolErr refused | precondErr refused => exact nomatch rdbufRule_refuse refused
    | envelope entry => cases entry

end Sys2Proof.Machine
end

section
/-! PROOFS. Refusals, fault bits and interrupt levels (60_exceptions.md R201 to R209): what each command's rule can answer,
what a refusal leaves, and what each move of a channel does to CH_ERR and to TCF. -/

namespace Sys2Proof.Machine

/-! ## What a command answers -/

/-- What a rule may answer: a response is OK (30_encoding.md R101), and it stops only where a divisor of it is 0 (log 11). -/
def Reply.Answers (zeroDivisor : Prop) : Reply → Prop
  | .done _ r => r.sts = .ok
  | .refuse _ => True
  | .stop _ => zeroDivisor

/-- Recompute divides by the harmonic that the state entered drives at (42_envelope.md R153). -/
theorem replyOr_recompute_answers {x : Chan} {zeroDivisor : Prop} {f : Chan → Response}
    (harm : (driveHarm x).toNat = 0 → zeroDivisor) (ok : ∀ c, (f c).sts = .ok) :
    (replyOr (recompute x) f).Answers zeroDivisor := by
  unfold recompute
  split
  next zero => exact harm zero
  next => exact ok _

/-- ON drives at the harmonic it has checked (42_envelope.md R155). -/
theorem onRule_answers (now : Instant) (vel : Velocity) (harm : Harmonic) (c : Chan) :
    (onRule now vel harm c).Answers False := by
  unfold onRule
  split
  · trivial
  next accepted =>
    obtain ⟨nonzero, -⟩ := not_or.1 accepted
    split
    case h_1 | h_2 => rfl
    all_goals exact replyOr_recompute_answers nonzero fun _ => rfl

/-- Release drives at ENV_HARM (42_envelope.md R156). -/
theorem offRule_answers (now : Instant) (c : Chan) : (offRule now c).Answers (c.envHarm.toNat = 0) := by
  unfold offRule
  split
  case h_1 | h_2 => exact replyOr_recompute_answers id fun _ => rfl
  all_goals rfl

/-- Sustain drives at ENV_HARM, the states without a note at 1 (42_envelope.md R153, R157). -/
theorem updateDue_answers (c : Chan) : (updateDue c).Answers (c.envHarm.toNat = 0) := by
  have atOne {z : Prop} (h : (1 : Harmonic).toNat = 0) : z := absurd h (by decide)
  unfold updateDue
  split
  case h_1 => exact replyOr_recompute_answers id fun _ => rfl
  case h_2 => split <;> exact replyOr_recompute_answers atOne fun _ => rfl
  case h_3 | h_4 => exact replyOr_recompute_answers atOne fun _ => rfl
  case h_5 | h_6 => rfl

theorem updateRule_answers (now : Instant) (c : Chan) : (updateRule now c).Answers (c.envHarm.toNat = 0) := by
  unfold updateRule
  split
  · rfl
  · exact updateDue_answers c

theorem requestRule_answers (c : Chan) : (requestRule c).Answers False := by
  unfold requestRule
  split
  · rfl
  · split <;> rfl

/-- FILL of an outstanding request takes its times modulo FR_PERIOD (41_synthesis.md R140, R141). -/
theorem fillRule_answers (bufLen : Nat) (c : Chan) :
    (fillRule bufLen c).Answers (c.frValid = true ∧ c.frPeriod.toNat = 0) := by
  unfold fillRule
  split
  · trivial
  next outstanding =>
    split
    next zero => exact ⟨Bool.eq_true_of_not_eq_false outstanding, zero⟩
    next => rfl

/-- SUBMIT takes the phase modulo TGT_PERIOD (40_pipeline.md R112). -/
theorem submitRule_answers (bufLen : Nat) (buf : Slot) (c : Chan) :
    (submitRule bufLen buf c).Answers (c.tgtPeriod.toNat = 0) := by
  unfold submitRule
  split
  · trivial
  · split
    next zero => exact zero
    next => rfl

theorem setRule_answers (period : Period) (amp : Sample) (inv : Bool) (c : Chan) :
    (setRule period amp inv c).Answers False := by
  unfold setRule
  split
  · trivial
  · rfl

theorem calRule_answers (c : Chan) : (calRule c).Answers False := by
  unfold calRule
  split
  · rfl
  · split
    · rfl
    · split <;> rfl

theorem readRule_answers (glbErr : Bool) (reg : BitVec 8) (c : Chan) : (readRule glbErr reg c).Answers False := by
  unfold readRule
  split
  · trivial
  · rfl

theorem rdbufRule_answers (bufLen : Nat) (buf : Slot) (index : BitVec 32) (c : Chan) :
    (rdbufRule bufLen buf index c).Answers False := by
  unfold rdbufRule
  split
  · trivial
  · rfl

/-- Where a divisor of the command's rule is 0 on channel c (log 11). -/
abbrev zeroDivisorOf (c : Chan) : Instr → Prop
  | .off _ _ => c.envHarm.toNat = 0
  | .update _ => c.envHarm.toNat = 0
  | .fill _ => c.frValid = true ∧ c.frPeriod.toNat = 0
  | .submit _ _ => c.tgtPeriod.toNat = 0
  | .on _ _ _ => False
  | .request _ => False
  | .set _ _ _ _ => False
  | .cal _ => False
  | .read _ _ => False
  | .rdbuf _ _ _ => False

/-- A command that is not refused answers OK, or stops at its divisor: the other response codes are those of the fault
kinds (R201). -/
theorem commandRule_answers (s : State) (i : Instr) (c : Chan) : (commandRule s i c).Answers (zeroDivisorOf c i) := by
  cases i with
  | on => exact onRule_answers _ _ _ c
  | off => exact offRule_answers _ c
  | update => exact updateRule_answers _ c
  | request => exact requestRule_answers c
  | fill => exact fillRule_answers _ c
  | submit => exact submitRule_answers _ _ c
  | set => exact setRule_answers _ _ _ c
  | cal => exact calRule_answers c
  | read => exact readRule_answers _ _ c
  | rdbuf => exact rdbufRule_answers _ _ _ c

theorem commandRule_done_ok {s : State} {i : Instr} {c c' : Chan} {r : Response}
    (h : commandRule s i c = .done c' r) : r.sts = .ok :=
  (h ▸ commandRule_answers s i c : (Reply.done c' r).Answers (zeroDivisorOf c i))

theorem zeroDivisorOf_commandRule {s : State} {i : Instr} {c : Chan} {f : Fault} (h : commandRule s i c = .stop f) :
    zeroDivisorOf c i :=
  (h ▸ commandRule_answers s i c : (Reply.stop f).Answers (zeroDivisorOf c i))

/-! ## Refusals -/

/-- What a refusal of kind k leaves, told by its response code (R201, R208). -/
abbrev RefusedAs (n : Nat) (s t : State) : Prop :=
  (t.rsp.sts = .illegal →
    t = { s with glbErr := true, rsp := { sts := .illegal, isSome := false, val := 0 } }) ∧
  (t.rsp.sts = .protocol → ∃ c, s.chans[n]? = some c ∧
    t = s.finish n c.setProtocolErr { sts := .protocol, isSome := false, val := 0 }) ∧
  (t.rsp.sts = .precond → ∃ c, s.chans[n]? = some c ∧
    t = s.finish n c.setPrecondErr { sts := .precond, isSome := false, val := 0 })

theorem raise_illegal_refusedAs (s : State) (n : Nat) : RefusedAs n s (s.raise .illegal n) :=
  ⟨fun _ => rfl, nofun, nofun⟩

theorem raise_refusedAs {s : State} {n : Nat} {c : Chan} (hc : s.chans[n]? = some c) (k : FaultKind) :
    RefusedAs n s (s.raise k n) := by
  cases k with
  | illegal => exact raise_illegal_refusedAs s n
  | protocol => exact ⟨nofun, fun _ => ⟨c, hc, raise_protocol_eq_finish hc⟩, nofun⟩
  | precond => exact ⟨nofun, nofun, fun _ => ⟨c, hc, raise_precond_eq_finish hc⟩⟩

/-- Settles O42: a command that responds answers OK, and one that is refused raises one kind. -/
theorem refusedCommandChangesOnlyItsBit : Obligations.RefusedCommandChangesOnlyItsBit := by
  intro i s t h
  rw [exec_eq_onChannel] at h
  rcases onChannel_next h with ⟨-, rfl⟩ | ⟨c, hc, ⟨c', r, hr, rfl⟩ | ⟨k, -, rfl⟩⟩
  · exact raise_illegal_refusedAs s _
  · simp [commandRule_done_ok hr]
  · exact raise_refusedAs hc k

/-! ## The fault bits -/

/-- No bit of CH_ERR set in e is clear in e' (10_state.md R59). -/
abbrev ChErr.Keeps (e e' : ChErr) : Prop :=
  (e.protocol = true → e'.protocol = true) ∧ (e.precond = true → e'.precond = true) ∧
    (e.missed = true → e'.missed = true)

theorem ChErr.keeps_refl (e : ChErr) : e.Keeps e := ⟨id, id, id⟩

theorem CommandStep.keeps_chErr {s : State} {i : Instr} {c c' : Chan} (h : CommandStep s c i c') :
    c.chErr.Keeps c'.chErr := by
  cases h with
  | protocolErr => exact ⟨fun _ => rfl, id, id⟩
  | precondErr => exact ⟨id, fun _ => rfl, id⟩
  | envelope entry target => rw [envelope_frame entry target]; exact c.chErr.keeps_refl
  | reclaim | handOut => rw [reclaim_frame]; exact c.chErr.keeps_refl
  | submit => rw [submitted_frame]; exact c.chErr.keeps_refl
  | unchanged | set | fill | ack | blend => exact c.chErr.keeps_refl

theorem ChanStep.keeps_chErr {s : State} {n : Nat} {c c' : Chan} (h : ChanStep s n c c')
    (noReset : s.pending.head? ≠ some .reset) : c.chErr.Keeps c'.chErr := by
  cases h with
  | command _ _ _ move => exact move.keeps_chErr
  | complete => rw [complete_frame]; exact ⟨id, id, fun recorded => Bool.or_eq_true_iff.2 (Or.inl recorded)⟩
  | reset head => exact absurd head noReset
  | unchanged | transfer | capture => exact c.chErr.keeps_refl

/-- No command clears GLB_ERR: it is left alone, or set by an ILLEGAL response (R201). -/
theorem runCommand_keeps_glbErr {w : CmdWord} {s t : State} (h : runCommand w s = .next t) (recorded : s.glbErr = true) :
    t.glbErr = true := by
  cases decoded : decode w with
  | error =>
    rw [runCommand_of_error decoded] at h
    cases h
    rfl
  | ok i =>
    rw [runCommand_of_ok decoded] at h
    obtain ⟨-, -, -, -, kept | ⟨raised, -⟩, -⟩ := exec_onlyChannel (P := fun _ _ => True) h fun _ _ _ => trivial
    · exact kept.trans recorded
    · exact raised

theorem runEvent_keeps_glbErr {e : Event} {s t : State} (h : runEvent e s = .next t) (noReset : e ≠ .reset)
    (recorded : s.glbErr = true) : t.glbErr = true := by
  cases e with
  | command => exact runCommand_keeps_glbErr h recorded
  | beat =>
    simp only [runEvent, runBeat] at h
    split at h
    · cases h
    · split at h <;> cases h
      exact recorded
  | capture =>
    simp only [runEvent, runCapture] at h
    split at h
    · cases h
    · split at h <;> cases h
      exact recorded
  | time => cases h; exact recorded
  | reset => exact absurd rfl noReset

/-- A step that answers a next state is the idle one, or the rule of the agent step at the head of the list. -/
theorem step_next_cases {s t : State} (h : step s = .next t) :
    (s.pending = [] ∧ t = s) ∨
      ∃ e rest, s.pending = e :: rest ∧ runEvent e { s with pending := rest } = .next t := by
  obtain ⟨-, h⟩ := step_next h
  unfold runPending at h
  split at h
  next empty => exact Or.inl ⟨empty, (Host.Outcome.next.inj h).symm⟩
  next e rest pending => exact Or.inr ⟨e, rest, pending, h⟩

/-- Settles O43: CH_ERR is kept by every move but RESET's, and GLB_ERR by every agent but RESET. -/
theorem faultBitsAreSticky : Obligations.FaultBitsAreSticky := by
  intro s t h noReset
  refine ⟨fun recorded => ?_, fun n c c' hc hc' => (chanStep_of_step h hc hc').keeps_chErr noReset⟩
  rcases step_next_cases h with ⟨-, rfl⟩ | ⟨e, rest, pending, ran⟩
  · exact recorded
  · exact runEvent_keeps_glbErr ran (fun reset => noReset (by rw [pending, reset]; rfl)) recorded

/-! ## TC_IRQ -/

/-- A command that changes TCF is a REQUEST, which clears it (40_pipeline.md R111). -/
theorem CommandStep.tcf_changes {s : State} {i : Instr} {c c' : Chan} (h : CommandStep s c i c')
    (changed : c'.tcf ≠ c.tcf) : (∃ ch, i = .request ch) ∧ c'.tcf = false := by
  cases h with
  | reclaim ch => rw [reclaim_frame]; exact ⟨⟨ch, rfl⟩, rfl⟩
  | handOut ch => rw [reclaim_frame]; exact ⟨⟨ch, rfl⟩, rfl⟩
  | envelope entry target => rw [envelope_frame entry target] at changed; exact absurd rfl changed
  | submit => rw [submitted_frame] at changed; exact absurd rfl changed
  | unchanged | protocolErr | precondErr | set | fill | ack | blend => exact absurd rfl changed

/-- TCF rises at the completing beat and falls at a REQUEST of its channel or at RESET (40_pipeline.md R111, R123). -/
theorem ChanStep.tcf_changes {s : State} {n : Nat} {c c' : Chan} (h : ChanStep s n c c') (changed : c'.tcf ≠ c.tcf) :
    (c'.tcf = true ∧ ∃ ch, s.pending.head? = some (.beat ch) ∧ ch.toNat = n ∧ c.engRun = true ∧
      c.engBeat.toNat + 1 = s.block.bufLen) ∨
    (c'.tcf = false ∧ (s.pending.head? = some .reset ∨
      ∃ w ch, s.pending.head? = some (.command w) ∧ decode w = .ok (.request ch) ∧ ch.toNat = n)) := by
  cases h with
  | command head decoded chan move =>
    obtain ⟨⟨ch, rfl⟩, cleared⟩ := move.tcf_changes changed
    exact Or.inr ⟨cleared, Or.inr ⟨_, ch, head, decoded, chan⟩⟩
  | complete head chan running inside last =>
    rw [complete_frame]
    exact Or.inl ⟨rfl, _, head, chan, running, by bv_omega⟩
  | reset head => exact Or.inr ⟨rfl, Or.inl head⟩
  | unchanged | transfer | capture => exact absurd rfl changed

/-- Settles O44: TC_IRQ is TCF, and each move that changes it is named. -/
theorem tcIrqRisesAtCompletionAndFallsAtRequestOrReset :
    Obligations.TcIrqRisesAtCompletionAndFallsAtRequestOrReset := by
  intro s t n c c' h hc hc'
  have move := chanStep_of_step h hc hc'
  refine ⟨rfl, fun (low : c.tcf = false) (high : c'.tcf = true) => ?rise,
    fun (high : c.tcf = true) (low : c'.tcf = false) => ?fall⟩
  case rise =>
    rcases move.tcf_changes (by simp [low, high]) with ⟨-, beat⟩ | ⟨cleared, -⟩
    · exact beat
    · exact absurd (high.symm.trans cleared) (by decide)
  case fall =>
    rcases move.tcf_changes (by simp [low, high]) with ⟨raised, -⟩ | ⟨-, cause⟩
    · exact absurd (raised.symm.trans low) (by decide)
    · exact cause

/-! ## CAP_IRQ -/

/-- Under the envelope invariant CAPIE is SampleFrequency, which only a metered channel is in (10_state.md R67). -/
theorem capIrq_eq_true_iff {c : Chan} (inv : EnvelopeInv c) :
    capIrq c = true ↔ c.meter.capf = true ∧ c.envState = .sampleFrequency := by
  obtain ⟨-, enabled, metered, -⟩ := inv
  rw [capIrq, Bool.and_eq_true, Bool.and_eq_true, enabled]
  exact ⟨And.right, fun up => ⟨metered (Or.inr up.2), up⟩⟩

/-- Where CAP_IRQ is up CAL is armed (43_calibration.md R184). -/
theorem calArmed_of_capIrq {c : Chan} (inv : EnvelopeInv c) (up : capIrq c = true) : calArmed c = true := by
  obtain ⟨-, sampling⟩ := (capIrq_eq_true_iff inv).1 up
  obtain ⟨-, -, metered, -⟩ := inv
  exact calArmed_eq_true_iff.2 ⟨metered (Or.inr sampling), sampling⟩

/-- An acknowledged meter holds no capture, so its interrupt is down, whatever CAL left in CFG_PERIOD
(43_calibration.md R181). -/
theorem capIrq_of_capf {c : Chan} (read : c.meter.capf = false) : capIrq c = false := by
  simp [capIrq, read]

theorem capIrq_of_calRule {c c' : Chan} {r : Response} (inv : EnvelopeInv c) (h : calRule c = .done c' r) :
    capIrq c' = false := by
  cases armed : calArmed c with
  | false =>
    rw [calRule_of_not_armed armed] at h
    cases h
    exact Bool.eq_false_of_not_eq_true fun up =>
      absurd ((calArmed_of_capIrq inv up).symm.trans armed) (by decide)
  | true =>
    rw [calRule, if_neg (by simp [armed])] at h
    refine capIrq_of_capf ?_
    split at h
    · cases h; rfl
    · split at h <;> cases h <;> rfl

/-- Settles O45: a CAL that finds the interrupt up is armed, and acknowledges the capture. -/
theorem capIrqIsPendingCaptureInSampleFrequency : Obligations.CapIrqIsPendingCaptureInSampleFrequency := by
  intro s t ch c c' hc inv
  refine ⟨capIrq_eq_true_iff inv, fun h hc' => ?_⟩
  rcases onChannel_next h with ⟨missing, -⟩ | ⟨d, hd, ⟨d', r, done, rfl⟩ | ⟨k, refused, -⟩⟩
  · cases missing.symm.trans hc
  · obtain rfl := Option.some.inj (hc.symm.trans hd)
    rw [State.finish_chans, List.getElem?_set_self (List.getElem?_eq_some_iff.1 hc).1] at hc'
    obtain rfl := Option.some.inj hc'
    exact capIrq_of_calRule inv done
  · exact absurd refused (calRule_ne_refuse d k)

end Sys2Proof.Machine
end

section
/-! PROOFS. Steps that complete and runs (60_exceptions.md R211 to R214, R222): the time base and the meter, every
agent step completes under the invariants, which hold along a run, and its cuts as the iterated step. -/

namespace Sys2Proof.Machine

/-! ## The time base and the meter -/

/-- A capture on a metered channel overwrites its record (43_calibration.md R180). -/
theorem runCapture_of_metered {ch : ChanIdx} {s : State} {c : Chan} (hc : s.chans[ch.toNat]? = some c)
    (metered : c.cfg.hasMeter = true) (e : Bool) (m : Period) :
    runCapture ch e m s = .next { s with chans := s.chans.set ch.toNat (meterCapture e m c) } := by
  simp only [runCapture, hc, metered, if_true]

/-- Settles O11: each is its agent's rule, with the list's head taken off. -/
theorem timeAndCaptureSteps : Obligations.TimeAndCaptureSteps := by
  intro s rest valid
  refine ⟨fun t pending => ?time, fun ch e m c pending hc metered => ?capture⟩
  case time =>
    rw [step_eq_agentStep pending]
    exact agentStep_of_valid valid
  case capture =>
    rw [step_eq_agentStep pending]
    exact (agentStep_of_valid (by exact valid)).trans (runCapture_of_metered (by exact hc) metered e m)

/-! ## Every agent step completes -/

/-- Every divisor of a command's rule is a period or a harmonic that 10_state.md R25 and R68 keep at least 1. -/
theorem not_zeroDivisorOf {c : Chan} (inv : PeriodInv c) (i : Instr) : ¬ zeroDivisorOf c i := by
  obtain ⟨-, target, request, harm, -⟩ := inv
  cases i with
  | off | update => exact Nat.ne_of_gt harm
  | fill => exact fun ⟨outstanding, zero⟩ => Nat.ne_of_gt (request outstanding) zero
  | submit => exact Nat.ne_of_gt target
  | on | request | set | cal | read | rdbuf => exact id

theorem onChannel_completes {ch : ChanIdx} {s : State} {rule : Chan → Reply}
    (noStop : ∀ c, s.chans[ch.toNat]? = some c → ∀ f, rule c ≠ .stop f) : ∃ t, onChannel ch s rule = .next t := by
  cases hc : s.chans[ch.toNat]? with
  | none => exact ⟨_, onChannel_none hc⟩
  | some c =>
    cases reply : rule c with
    | done => exact ⟨_, onChannel_done hc reply⟩
    | refuse => exact ⟨_, onChannel_refuse hc reply⟩
    | stop f => exact absurd reply (noStop c hc f)

theorem runCommand_completes {s : State} (inv : s.Inv) (w : CmdWord) : ∃ t, runCommand w s = .next t := by
  cases decoded : decode w with
  | error => exact ⟨_, runCommand_of_error decoded s⟩
  | ok i =>
    rw [runCommand_of_ok decoded, exec_eq_onChannel]
    refine onChannel_completes fun c hc => ?_
    obtain ⟨-, period, -⟩ := inv c (List.mem_of_getElem? hc)
    exact fun f stopped => not_zeroDivisorOf period i (zeroDivisorOf_commandRule stopped)

/-- A running engine's beat is inside its buffer, a paused engine ignores the trigger event (10_state.md R52). -/
theorem beat_completes {bufLen : Nat} {c : Chan} (inv : BeatInv bufLen c) : ∃ c', beat bufLen c = some c' := by
  cases run : c.engRun with
  | true => exact ⟨_, beat_of_running run (inv.1 run)⟩
  | false => exact ⟨c, beat_of_paused run⟩

/-- The trigger event of a channel whose engine has a sample to move, or is paused (40_pipeline.md R120). -/
theorem runBeat_of_some {ch : ChanIdx} {s : State} {c c' : Chan} (hc : s.chans[ch.toNat]? = some c)
    (moved : beat s.block.bufLen c = some c') :
    runBeat ch s = .next { s with chans := s.chans.set ch.toNat c' } := by
  simp only [runBeat, hc, moved]

theorem runEvent_completes {s : State} {e : Event} (inv : s.Inv) (agent : eventExists s e) :
    ∃ t, runEvent e s = .next t := by
  cases e with
  | command w => exact runCommand_completes inv w
  | beat ch =>
    have hc : s.chans[ch.toNat]? = some (s.chans[ch.toNat]'agent) := List.getElem?_eq_getElem agent
    obtain ⟨-, -, bound, -⟩ := inv _ (List.getElem_mem agent)
    obtain ⟨c', moved⟩ := beat_completes bound
    exact ⟨_, runBeat_of_some hc moved⟩
  | capture ch merr mval =>
    obtain ⟨c, hc, metered⟩ := agent
    exact ⟨_, runCapture_of_metered hc metered merr mval⟩
  | time => exact ⟨_, rfl⟩
  | reset => exact ⟨_, rfl⟩

/-- Settles O48: with no agent step chosen the state stays (log 2), and the agent step chosen completes. -/
theorem stepCompletesUnderTheInvariants : Obligations.StepCompletesUnderTheInvariants := by
  intro s valid inv agent
  rw [step_of_valid valid]
  unfold runPending
  split
  next => exact ⟨s, rfl⟩
  next e rest pending =>
    have agent : eventExists s e := agent e (by rw [pending]; rfl)
    exact runEvent_completes (s := { s with pending := rest }) inv agent

/-! ## The invariants along a run -/

/-- What every state of a run meets: a well-formed configuration and every invariant of 10_state.md. -/
abbrev State.Sound (s : State) : Prop := s.config.Valid ∧ s.Inv

/-- RESET leaves every invariant (70_reset_and_hazards.md R230), so they hold where a run starts. -/
theorem sound_of_isStart {s : State} (start : IsStart s) : s.Sound := by
  obtain ⟨valid, -, atReset, -⟩ := start
  obtain ⟨⟨pos, -⟩, -, -, cfgs⟩ := id valid
  refine ⟨valid, fun c hc => ?_⟩
  have chans : s.chans.map resetChannel = s.chans := congrArg State.chans atReset
  rw [← chans] at hc
  obtain ⟨d, hd, rfl⟩ := List.mem_map.1 hc
  exact atReset_chanInv pos (cfgs _ (List.mem_map_of_mem hd)) _ _ _

theorem ChanStep.keeps_chanInv {s : State} {n : Nat} {c c' : Chan} (block : s.block.Valid) (cfg : c.cfg.Valid)
    (h : ChanStep s n c c') (inv : ChanInv s.block.bufLen c) : ChanInv s.block.bufLen c' := by
  obtain ⟨envelope, period, bound, mem, pipeline⟩ := inv
  exact ⟨h.keeps_envelopeInv envelope, h.keeps_periodInv cfg period, h.keeps_beatInv block bound, h.keeps_memInv mem,
    h.keeps_pipelineInv pipeline⟩

theorem step_keeps_sound {s t : State} (sound : s.Sound) (h : step s = .next t) : t.Sound := by
  refine ⟨?_, step_keeps (I := ChanInv) (fun block cfg move => move.keeps_chanInv block cfg) sound.2 h⟩
  rw [stepKeepsConfiguration s t h]
  exact sound.1

theorem agentStep_keeps_sound {e : Event} {s t : State} (sound : s.Sound) (h : agentStep e s = .next t) : t.Sound :=
  step_keeps_sound (s := placeEvent e s) sound h

/-- An enabled agent step is a step of an agent that exists (60_exceptions.md R211). -/
theorem eventExists_of_enabled {s : State} {e : Event} (h : enabled s e) : eventExists s e := by
  cases e with
  | beat ch =>
    obtain ⟨c, hc, -⟩ := h
    exact (List.getElem?_eq_some_iff.1 hc).1
  | command | capture | time | reset => exact h

theorem agentStep_completes {e : Event} {s : State} (sound : s.Sound) (h : enabled s e) :
    ∃ t, agentStep e s = .next t := by
  rw [agentStep_of_valid sound.1]
  exact runEvent_completes sound.2 (eventExists_of_enabled h)

theorem sound_of_run {len : Option Nat} {s : Nat → State} {e : Nat → Event} {n : Nat} (run : IsRun len s e)
    (state : hasState len n) : (s n).Sound := by
  induction n with
  | zero => exact sound_of_isStart run.1
  | succ n ih =>
    obtain ⟨-, stepped⟩ := run.2 n state
    exact agentStep_keeps_sound (ih fun l hl => Nat.le_of_succ_le (state l hl)) stepped

/-! ## The host's infinite runs -/

/-- The state an outcome leaves; s where it leaves none. -/
def nextOr (s : State) : Host.Outcome State Fault Refusal → State
  | .next t => t
  | .fault _ => s
  | .refused _ => s

/-- The states the host goes through when it writes the words w, one after the other, from s₀. -/
def hostStates (w : Nat → CmdWord) (s₀ : State) : Nat → State
  | 0 => s₀
  | n + 1 => nextOr (hostStates w s₀ n) (agentStep (.command (w n)) (hostStates w s₀ n))

theorem hostStates_step {w : Nat → CmdWord} {s₀ : State} {n : Nat} (sound : (hostStates w s₀ n).Sound) :
    agentStep (.command (w n)) (hostStates w s₀ n) = .next (hostStates w s₀ (n + 1)) := by
  obtain ⟨t, stepped⟩ := agentStep_completes (e := .command (w n)) sound trivial
  simp only [hostStates, stepped, nextOr]

theorem hostStates_sound {w : Nat → CmdWord} {s₀ : State} (start : IsStart s₀) (n : Nat) :
    (hostStates w s₀ n).Sound := by
  induction n with
  | zero => exact sound_of_isStart start
  | succ n ih => exact agentStep_keeps_sound ih (hostStates_step ih)

/-- Settles O59: the invariants hold at the start and every agent step keeps them, and under them every agent step
completes, so the host can always write its next word. -/
theorem runsMeetTheInvariantsAndGoOn : Obligations.RunsMeetTheInvariantsAndGoOn := by
  refine ⟨fun len s e n run state => ?_, fun s₀ w start => ⟨hostStates w s₀, rfl, start, fun n _ => ?_⟩⟩
  · have sound := sound_of_run run state
    exact ⟨sound.1, sound.2, fun x => agentStep_completes sound⟩
  · exact ⟨trivial, hostStates_step (hostStates_sound start n)⟩

/-! ## The cuts of a run -/

/-- An agent step neither reads nor writes the steps to come. -/
theorem agentStep_of_pending {e : Event} {s t : State} (l : List Event) (h : agentStep e s = .next t) :
    agentStep e { s with pending := l } = .next { t with pending := l } := by
  have valid : s.config.Valid := (step_next h).1
  rw [agentStep_of_valid valid] at h
  rw [agentStep_of_valid (by exact valid)]
  exact runEvent_pending l h

theorem agentStep_keeps_pending {e : Event} {s t : State} (h : agentStep e s = .next t) : t.pending = s.pending := by
  have same : agentStep e s = .next { t with pending := s.pending } := agentStep_of_pending s.pending h
  have kept : t = { t with pending := s.pending } := Host.Outcome.next.inj (h.symm.trans same)
  rw [kept]

/-- No agent step is left over at a cut of a run: each is chosen and taken at once (log 1). -/
theorem pending_of_run {len : Option Nat} {s : Nat → State} {e : Nat → Event} {n : Nat} (run : IsRun len s e)
    (state : hasState len n) : (s n).pending = [] := by
  induction n with
  | zero =>
    obtain ⟨⟨-, pending, -⟩, -⟩ := run
    exact pending
  | succ n ih =>
    obtain ⟨-, stepped⟩ := run.2 n state
    exact (agentStep_keeps_pending stepped).trans (ih fun l hl => Nat.le_of_succ_le (state l hl))

/-- From the m-th state of a run, k iterated steps over the agent steps that follow lead to the k-th state after it. -/
theorem core_run_of_run {len : Option Nat} {s : Nat → State} {e : Nat → Event} (run : IsRun len s e) (k m : Nat)
    (state : hasState len (m + k)) :
    core.run k ({ s m with pending := (List.range' m k).map e } : State) = .next (s (m + k)) := by
  induction k generalizing m with
  | zero =>
    have empty : (s m).pending = [] := pending_of_run run state
    have unchanged : { s m with pending := [] } = s m := by rw [← empty]
    exact congrArg Host.Outcome.next unchanged
  | succ k ih =>
    have index : m + 1 + k = m + (k + 1) := Nat.add_right_comm m 1 k
    have rest := ih (m + 1) (index ▸ state)
    rw [index] at rest
    obtain ⟨-, stepped⟩ := run.2 m fun l hl => Nat.lt_of_lt_of_le (by omega) (state l hl)
    have next := agentStep_of_pending ((List.range' (m + 1) k).map e) stepped
    exact (core_run_succ next).trans rest

/-- Settles O60: the cut after n steps, from the start. -/
theorem everyCutOfARunIsIteratedStep : Obligations.EveryCutOfARunIsIteratedStep := by
  intro len s e n run state
  have cut := core_run_of_run run n 0 (by rwa [Nat.zero_add])
  rwa [← List.range_eq_range', Nat.zero_add] at cut

end Sys2Proof.Machine
end

section
/-! PROOFS. Reset and the configuration premises (70_reset_and_hazards.md R230, R231, R234). -/

namespace Sys2Proof.Machine

/-! ## The configuration premises -/

/-- Under a configuration that is not well formed no agent steps (70_reset_and_hazards.md R234). -/
theorem step_of_not_valid {s : State} (h : ¬ s.config.Valid) : step s = .refused .badConfig := if_neg h

/-- A state of a well-formed configuration meets each premise of 70_reset_and_hazards.md R234. -/
theorem premises_of_valid {s : State} (h : s.config.Valid) :
    s.chans ≠ [] ∧ s.block.bufLen ≠ 0 ∧ ∀ c ∈ s.chans, c.cfg.nominalPeriod ≠ 0 ∧ c.cfg.spacing ≠ 0 := by
  obtain ⟨⟨samples, -⟩, channels, -, cfgs⟩ := h
  refine ⟨fun none => ?channels, Nat.ne_of_gt samples, fun c member => ?periods⟩
  case channels => simp [State.config, none] at channels
  case periods =>
    obtain ⟨period, spacing⟩ := cfgs c.cfg (List.mem_map_of_mem member)
    exact ⟨BitVec.toNat_ne.2 (Nat.ne_of_gt period), BitVec.toNat_ne.2 (Nat.ne_of_gt spacing)⟩

/-- Settles O10: a well-formed configuration meets every premise, and step runs under no other. -/
theorem stepRefusesIllFormedConfiguration : Obligations.StepRefusesIllFormedConfiguration := by
  intro s violated
  refine step_of_not_valid fun valid => ?_
  obtain ⟨channels, samples, periods⟩ := premises_of_valid valid
  rcases violated with none | empty | ⟨c, member, zero⟩
  · exact channels none
  · exact samples empty
  · obtain ⟨period, spacing⟩ := periods c member
    exact zero.elim period spacing

/-! ## RESET -/

/-- A RESET at the head of the list runs runReset, with the list's head taken off. -/
theorem step_of_reset {s : State} {rest : List Event} (valid : s.config.Valid) (pending : s.pending = .reset :: rest) :
    step s = .next (runReset { s with pending := rest }) := by
  rw [step_eq_agentStep pending]
  exact agentStep_of_valid valid

/-- Settles O12: runReset's block, each channel the one of Chan.atReset that keeps the constants and the external
state. -/
theorem resetStepLeavesTheResetState : Obligations.ResetStepLeavesTheResetState :=
  fun _ _ valid pending => step_of_reset valid pending

end Sys2Proof.Machine
end
